-- ==== Sys2Proof/Word.lean ====
section
/-! DEFINITION. The word types of the hardware: bytes, 16-bit words, 12-bit addresses, register indices, time values. -/

namespace Sys2Proof

/-- A byte: one cell of memory, one general register (`10_state.md` R13, R33). -/
abbrev Byte := BitVec 8

/-- A 16-bit word: an instruction word, PC, I, a stack entry (`10_state.md` R15, R17, R19). -/
abbrev Word := BitVec 16

/-- The 12-bit address operand NNN (`30_encoding.md` R55). -/
abbrev Addr12 := BitVec 12

/-- A general register's index, 0..15 (`10_state.md` R13). -/
abbrev Reg := Fin 16

/-- The 4-bit operand N, a count 0..15 (`30_encoding.md` R55). -/
abbrev Count := Fin 16

/-- A time value in host units, TIME_W = 64 bits (`00_scope.md` R6). -/
abbrev Time := BitVec 64

/-- The index of VF, the flags register V[15] (`10_state.md` R14). -/
abbrev vf : Reg := 15

end Sys2Proof
end

