-- ==== Sys2Proof/Config.lean ====
section
/-! DEFINITION. What the hardware fixes once and for all (`00_scope.md` R5), the reset values the spec leaves open and the
model names, and the free values: constants without a body, of which nothing can be proved. -/

namespace Sys2Proof

/-- MEM_SIZE: memory has 4096 bytes (`00_scope.md` R5). -/
abbrev Config.memSize : Nat := 4096

/-- PROGRAM_START: the first program byte and the reset value of PC (`00_scope.md` R5). -/
abbrev Config.programStart : Word := 0x200

/-- ROM_MAX: the largest ROM, 4096 - 512 bytes (`00_scope.md` R5). -/
abbrev Config.romMax : Nat := 3584

/-- TDEADLINE_INIT, an open parameter (`00_scope.md` R6). DESIGN CHOICE 0, unsafe: entry 4. -/
def Config.tdeadlineInit : Time := 0

/-- RPL_INIT, an open parameter (`10_state.md` R31). DESIGN CHOICE eight zero bytes, unsafe: entry 5. -/
def Config.rplInit : Vector Byte 8 := Vector.replicate 8 0

/-- The value of TICK_PERIOD in `State.reset`. The spec only says it is above 0 (`00_scope.md` R6). DESIGN CHOICE 1,
unsafe: entry 3. -/
def Config.tickPeriodInit : Time := 1

/-- LARGE_FONT_TABLE, byte `k` of 100 (`20_memory.md` R41): an open parameter, so a free value. Safe: entry 7. -/
opaque Config.largeFontByte : Nat → Byte

/-- The byte `key_input` the host presents at the `n`-th free draw (`70_reset_and_hazards.md` R149). Safe: entry 1. -/
opaque Config.freeKeyInput : Nat → Byte

/-- The value `now` the host presents at the `n`-th free draw (`70_reset_and_hazards.md` R150). Safe: entry 1. -/
opaque Config.freeNow : Nat → Time

/-- The byte `rand` of the `n`-th free draw (`42_load_alu.md` R92: a draw under no law). Safe: entry 1. -/
opaque Config.freeRand : Nat → Byte

end Sys2Proof
end

