-- ==== Sys2Proof/Syntax.lean ====
section
/-! DEFINITION. The instruction set as syntax: one constructor per row of `30_encoding.md` R56, in the table's order. -/

namespace Sys2Proof

/-- The 43 instructions. Operand letters as in `00_scope.md` R9: X and Y are register indices, N the low nibble, NN the low
byte, NNN the low 12 bits. Each operand has the type of its field (`30_encoding.md` R55), so that no term has an operand that
does not fit. -/
inductive Instr where
  /-- 00CN, SCD: scroll the display down by N lines (R104). -/
  | scd (n : Count)
  /-- 00E0, CLS: clear the display (R101). -/
  | cls
  /-- 00EE, RET: return from subroutine (R72). -/
  | ret
  /-- 00FB, SCR: scroll the display right by 4 pixels (R105). -/
  | scr
  /-- 00FC, SCL: scroll the display left by 4 pixels (R106). -/
  | scl
  /-- 00FD, EXIT: set the exit flag (R119). -/
  | exit
  /-- 00FE, LORES: select low resolution (R107). -/
  | lores
  /-- 00FF, HIRES: select high resolution (R108). -/
  | hires
  /-- 1NNN, JP: jump (R73). -/
  | jp (nnn : Addr12)
  /-- 2NNN, CALL: call subroutine (R74). -/
  | call (nnn : Addr12)
  /-- 3XNN, SEI: skip if V[X] = NN (R76). -/
  | sei (x : Reg) (nn : Byte)
  /-- 4XNN, SNEI: skip if V[X] ≠ NN (R77). -/
  | snei (x : Reg) (nn : Byte)
  /-- 5XY0, SER: skip if V[X] = V[Y] (R78). -/
  | ser (x : Reg) (y : Reg)
  /-- 6XNN, LDI: V[X] ← NN (R81). -/
  | ldi (x : Reg) (nn : Byte)
  /-- 7XNN, ADDI: V[X] ← V[X] + NN, no flag (R82). -/
  | addi (x : Reg) (nn : Byte)
  /-- 8XY0, MOV: V[X] ← V[Y] (R83). -/
  | mov (x : Reg) (y : Reg)
  /-- 8XY1, OR: V[X] ← V[X] | V[Y] (R84). -/
  | or (x : Reg) (y : Reg)
  /-- 8XY2, AND: V[X] ← V[X] & V[Y] (R85). -/
  | and (x : Reg) (y : Reg)
  /-- 8XY3, XOR: V[X] ← V[X] ^ V[Y] (R86). -/
  | xor (x : Reg) (y : Reg)
  /-- 8XY4, ADD: V[X] ← V[X] + V[Y], VF = carry (R87). -/
  | add (x : Reg) (y : Reg)
  /-- 8XY5, SUB: V[X] ← V[X] - V[Y], VF = no borrow (R88). -/
  | sub (x : Reg) (y : Reg)
  /-- 8XY6, SHR: shift right by one, VF = bit shifted out (R89). -/
  | shr (x : Reg) (y : Reg)
  /-- 8XY7, SUBN: V[X] ← V[Y] - V[X], VF = no borrow (R90). -/
  | subn (x : Reg) (y : Reg)
  /-- 8XYE, SHL: shift left by one, VF = bit shifted out (R91). -/
  | shl (x : Reg) (y : Reg)
  /-- 9XY0, SNER: skip if V[X] ≠ V[Y] (R79). -/
  | sner (x : Reg) (y : Reg)
  /-- ANNN, LDIDX: I ← NNN (R93). -/
  | ldidx (nnn : Addr12)
  /-- BNNN, JPOFF: jump with offset; its register index X is the top nibble of NNN (R75). -/
  | jpoff (nnn : Addr12)
  /-- CXNN, RND: V[X] ← rand & NN (R92). -/
  | rnd (x : Reg) (nn : Byte)
  /-- DXYN, DRW: draw an N-row sprite at (V[X], V[Y]) (R102). -/
  | drw (x : Reg) (y : Reg) (n : Count)
  /-- EX9E, SKP: skip if the key V[X] is down (R111). -/
  | skp (x : Reg)
  /-- EXA1, SKNP: skip if the key V[X] is not down (R112). -/
  | sknp (x : Reg)
  /-- FX07, LDDT: V[X] ← DT (R114). -/
  | lddt (x : Reg)
  /-- FX0A, WAITK: wait for a key (R113). -/
  | waitk (x : Reg)
  /-- FX15, STDT: DT ← V[X] (R115). -/
  | stdt (x : Reg)
  /-- FX18, STST: ST ← V[X] (R116). -/
  | stst (x : Reg)
  /-- FX1E, ADDIDX: I ← I + V[X], VF = overflow past 0xFFF (R94). -/
  | addidx (x : Reg)
  /-- FX29, FONT: I ← address of the font glyph V[X] (R95). -/
  | font (x : Reg)
  /-- FX30, BIGFONT: I ← address of the large-font glyph V[X] (R96). -/
  | bigfont (x : Reg)
  /-- FX33, BCD: store the three decimal digits of V[X] at I (R97). -/
  | bcd (x : Reg)
  /-- FX55, STM: store V[0]..V[X] at I (R98). -/
  | stm (x : Reg)
  /-- FX65, LDM: load V[0]..V[X] from I (R99). -/
  | ldm (x : Reg)
  /-- FX75, STRPL: store V[0]..V[min(X,7)] to the RPL channel (R117). -/
  | strpl (x : Reg)
  /-- FX85, LDRPL: load V[0]..V[min(X,7)] from the RPL channel (R118). -/
  | ldrpl (x : Reg)
  deriving DecidableEq, Repr

/-- The mnemonic of `30_encoding.md` R56 (the spec's own unique names, R61). -/
def Instr.mnemonic : Instr → String
  | .scd _ => "SCD"
  | .cls => "CLS"
  | .ret => "RET"
  | .scr => "SCR"
  | .scl => "SCL"
  | .exit => "EXIT"
  | .lores => "LORES"
  | .hires => "HIRES"
  | .jp _ => "JP"
  | .call _ => "CALL"
  | .sei _ _ => "SEI"
  | .snei _ _ => "SNEI"
  | .ser _ _ => "SER"
  | .ldi _ _ => "LDI"
  | .addi _ _ => "ADDI"
  | .mov _ _ => "MOV"
  | .or _ _ => "OR"
  | .and _ _ => "AND"
  | .xor _ _ => "XOR"
  | .add _ _ => "ADD"
  | .sub _ _ => "SUB"
  | .shr _ _ => "SHR"
  | .subn _ _ => "SUBN"
  | .shl _ _ => "SHL"
  | .sner _ _ => "SNER"
  | .ldidx _ => "LDIDX"
  | .jpoff _ => "JPOFF"
  | .rnd _ _ => "RND"
  | .drw _ _ _ => "DRW"
  | .skp _ => "SKP"
  | .sknp _ => "SKNP"
  | .lddt _ => "LDDT"
  | .waitk _ => "WAITK"
  | .stdt _ => "STDT"
  | .stst _ => "STST"
  | .addidx _ => "ADDIDX"
  | .font _ => "FONT"
  | .bigfont _ => "BIGFONT"
  | .bcd _ => "BCD"
  | .stm _ => "STM"
  | .ldm _ => "LDM"
  | .strpl _ => "STRPL"
  | .ldrpl _ => "LDRPL"

end Sys2Proof
end

