-- ==== Sys2Proof/WellFormed.lean ====
section
/-! DEFINITION. Well-formedness: an operand fits its field (`30_encoding.md` R55), a ROM image fits program space
(`70_reset_and_hazards.md` R146). The operand types of `Instr` already carry the bounds, so every term of `Instr` passes
(`Laws/Encoding.lean`, `wellFormed_all`); the checks are stated on raw fields, where an ill-formed one is refused. -/

namespace Sys2Proof

/-- One operand field of an instruction word: its letter, its width in bits, the number it holds. -/
structure Field where
  name : String
  width : Nat
  value : Nat
  deriving DecidableEq, Repr

/-- The field's number fits its width: operands are unsigned and never scaled (`30_encoding.md` R55). -/
def Field.fits (f : Field) : Bool := decide (f.value < 2 ^ f.width)

/-- The operand X or Y. -/
def Field.reg (name : String) (x : Reg) : Field := ⟨name, 4, x.val⟩

/-- The operand fields of an instruction, from the formats of `30_encoding.md` R54. -/
def Instr.fields : Instr → List Field
  | .scd n => [⟨"N", 4, n.val⟩]
  | .cls => []
  | .ret => []
  | .scr => []
  | .scl => []
  | .exit => []
  | .lores => []
  | .hires => []
  | .jp nnn => [⟨"NNN", 12, nnn.toNat⟩]
  | .call nnn => [⟨"NNN", 12, nnn.toNat⟩]
  | .sei x nn => [.reg "X" x, ⟨"NN", 8, nn.toNat⟩]
  | .snei x nn => [.reg "X" x, ⟨"NN", 8, nn.toNat⟩]
  | .ser x y => [.reg "X" x, .reg "Y" y]
  | .ldi x nn => [.reg "X" x, ⟨"NN", 8, nn.toNat⟩]
  | .addi x nn => [.reg "X" x, ⟨"NN", 8, nn.toNat⟩]
  | .mov x y => [.reg "X" x, .reg "Y" y]
  | .or x y => [.reg "X" x, .reg "Y" y]
  | .and x y => [.reg "X" x, .reg "Y" y]
  | .xor x y => [.reg "X" x, .reg "Y" y]
  | .add x y => [.reg "X" x, .reg "Y" y]
  | .sub x y => [.reg "X" x, .reg "Y" y]
  | .shr x y => [.reg "X" x, .reg "Y" y]
  | .subn x y => [.reg "X" x, .reg "Y" y]
  | .shl x y => [.reg "X" x, .reg "Y" y]
  | .sner x y => [.reg "X" x, .reg "Y" y]
  | .ldidx nnn => [⟨"NNN", 12, nnn.toNat⟩]
  | .jpoff nnn => [⟨"NNN", 12, nnn.toNat⟩]
  | .rnd x nn => [.reg "X" x, ⟨"NN", 8, nn.toNat⟩]
  | .drw x y n => [.reg "X" x, .reg "Y" y, ⟨"N", 4, n.val⟩]
  | .skp x => [.reg "X" x]
  | .sknp x => [.reg "X" x]
  | .lddt x => [.reg "X" x]
  | .waitk x => [.reg "X" x]
  | .stdt x => [.reg "X" x]
  | .stst x => [.reg "X" x]
  | .addidx x => [.reg "X" x]
  | .font x => [.reg "X" x]
  | .bigfont x => [.reg "X" x]
  | .bcd x => [.reg "X" x]
  | .stm x => [.reg "X" x]
  | .ldm x => [.reg "X" x]
  | .strpl x => [.reg "X" x]
  | .ldrpl x => [.reg "X" x]

/-- An instruction is well-formed when every operand fits its field. -/
def Instr.wellFormed (i : Instr) : Bool := i.fields.all Field.fits

/-- A ROM image fits program space: at most 3584 bytes, else `RomTooLarge` (`70_reset_and_hazards.md` R146). -/
def romFits (bytes : List Byte) : Bool := decide (bytes.length ≤ Config.romMax)

end Sys2Proof
end

