-- ==== Sys2Proof/Decode.lean ====
section
/-! DEFINITION. Decoding, by the exact match on mask and match word of `30_encoding.md` R56 and R57, total on any bytes and
rejecting by name; and the encoder, written from the same table's patterns. -/

namespace Sys2Proof

/-- Why bytes do not decode to an instruction. -/
inductive DecodeError where
  /-- The word matches no row of `30_encoding.md` R56: an unrecognized encoding (R58). -/
  | unrecognized (w : Word)
  /-- Fewer than the two bytes of an instruction word (`30_encoding.md` R53) were given. -/
  | truncated
  deriving DecidableEq, Repr

/-- X = `instr[11:8]` (`00_scope.md` R9). -/
def fieldX (w : Word) : Reg := (w.extractLsb' 8 4).toFin

/-- Y = `instr[7:4]` (`00_scope.md` R9). -/
def fieldY (w : Word) : Reg := (w.extractLsb' 4 4).toFin

/-- N = `instr[3:0]` (`00_scope.md` R9). -/
def fieldN (w : Word) : Count := (w.extractLsb' 0 4).toFin

/-- NN = `instr[7:0]` (`00_scope.md` R9). -/
def fieldNN (w : Word) : Byte := w.extractLsb' 0 8

/-- NNN = `instr[11:0]` (`00_scope.md` R9). -/
def fieldNNN (w : Word) : Addr12 := w.extractLsb' 0 12

/-- One row of the opcode table: a word `w` selects the row when `(w & mask) == match`; `build` reads the operands. -/
structure OpcodeRow where
  pattern : String
  matchWord : Word
  mask : Word
  build : Word → Instr

/-- The row's test of `30_encoding.md` R56. -/
def OpcodeRow.selects (r : OpcodeRow) (w : Word) : Bool := (w &&& r.mask) == r.matchWord

/-- The rows of `30_encoding.md` R56 whose family file is `44_display.md`. -/
def displayRows : List OpcodeRow :=
  [⟨"00CN", 0x00C0, 0xFFF0, fun w => .scd (fieldN w)⟩,
   ⟨"00E0", 0x00E0, 0xFFFF, fun _ => .cls⟩,
   ⟨"00FB", 0x00FB, 0xFFFF, fun _ => .scr⟩,
   ⟨"00FC", 0x00FC, 0xFFFF, fun _ => .scl⟩,
   ⟨"00FE", 0x00FE, 0xFFFF, fun _ => .lores⟩,
   ⟨"00FF", 0x00FF, 0xFFFF, fun _ => .hires⟩,
   ⟨"DXYN", 0xD000, 0xF000, fun w => .drw (fieldX w) (fieldY w) (fieldN w)⟩]

/-- The rows of `30_encoding.md` R56 whose family file is `41_control_flow.md`. -/
def controlRows : List OpcodeRow :=
  [⟨"00EE", 0x00EE, 0xFFFF, fun _ => .ret⟩,
   ⟨"1NNN", 0x1000, 0xF000, fun w => .jp (fieldNNN w)⟩,
   ⟨"2NNN", 0x2000, 0xF000, fun w => .call (fieldNNN w)⟩,
   ⟨"3XNN", 0x3000, 0xF000, fun w => .sei (fieldX w) (fieldNN w)⟩,
   ⟨"4XNN", 0x4000, 0xF000, fun w => .snei (fieldX w) (fieldNN w)⟩,
   ⟨"5XY0", 0x5000, 0xF00F, fun w => .ser (fieldX w) (fieldY w)⟩,
   ⟨"9XY0", 0x9000, 0xF00F, fun w => .sner (fieldX w) (fieldY w)⟩,
   ⟨"BNNN", 0xB000, 0xF000, fun w => .jpoff (fieldNNN w)⟩]

/-- The rows of `30_encoding.md` R56 whose family file is `42_load_alu.md`. -/
def loadAluRows : List OpcodeRow :=
  [⟨"6XNN", 0x6000, 0xF000, fun w => .ldi (fieldX w) (fieldNN w)⟩,
   ⟨"7XNN", 0x7000, 0xF000, fun w => .addi (fieldX w) (fieldNN w)⟩,
   ⟨"8XY0", 0x8000, 0xF00F, fun w => .mov (fieldX w) (fieldY w)⟩,
   ⟨"8XY1", 0x8001, 0xF00F, fun w => .or (fieldX w) (fieldY w)⟩,
   ⟨"8XY2", 0x8002, 0xF00F, fun w => .and (fieldX w) (fieldY w)⟩,
   ⟨"8XY3", 0x8003, 0xF00F, fun w => .xor (fieldX w) (fieldY w)⟩,
   ⟨"8XY4", 0x8004, 0xF00F, fun w => .add (fieldX w) (fieldY w)⟩,
   ⟨"8XY5", 0x8005, 0xF00F, fun w => .sub (fieldX w) (fieldY w)⟩,
   ⟨"8XY6", 0x8006, 0xF00F, fun w => .shr (fieldX w) (fieldY w)⟩,
   ⟨"8XY7", 0x8007, 0xF00F, fun w => .subn (fieldX w) (fieldY w)⟩,
   ⟨"8XYE", 0x800E, 0xF00F, fun w => .shl (fieldX w) (fieldY w)⟩,
   ⟨"CXNN", 0xC000, 0xF000, fun w => .rnd (fieldX w) (fieldNN w)⟩]

/-- The rows of `30_encoding.md` R56 whose family file is `43_index_memory.md`. -/
def indexRows : List OpcodeRow :=
  [⟨"ANNN", 0xA000, 0xF000, fun w => .ldidx (fieldNNN w)⟩,
   ⟨"FX1E", 0xF01E, 0xF0FF, fun w => .addidx (fieldX w)⟩,
   ⟨"FX29", 0xF029, 0xF0FF, fun w => .font (fieldX w)⟩,
   ⟨"FX30", 0xF030, 0xF0FF, fun w => .bigfont (fieldX w)⟩,
   ⟨"FX33", 0xF033, 0xF0FF, fun w => .bcd (fieldX w)⟩,
   ⟨"FX55", 0xF055, 0xF0FF, fun w => .stm (fieldX w)⟩,
   ⟨"FX65", 0xF065, 0xF0FF, fun w => .ldm (fieldX w)⟩]

/-- The rows of `30_encoding.md` R56 whose family file is `45_keypad_timer_system.md`. -/
def systemRows : List OpcodeRow :=
  [⟨"EX9E", 0xE09E, 0xF0FF, fun w => .skp (fieldX w)⟩,
   ⟨"EXA1", 0xE0A1, 0xF0FF, fun w => .sknp (fieldX w)⟩,
   ⟨"FX07", 0xF007, 0xF0FF, fun w => .lddt (fieldX w)⟩,
   ⟨"FX0A", 0xF00A, 0xF0FF, fun w => .waitk (fieldX w)⟩,
   ⟨"FX15", 0xF015, 0xF0FF, fun w => .stdt (fieldX w)⟩,
   ⟨"FX18", 0xF018, 0xF0FF, fun w => .stst (fieldX w)⟩,
   ⟨"FX75", 0xF075, 0xF0FF, fun w => .strpl (fieldX w)⟩,
   ⟨"FX85", 0xF085, 0xF0FF, fun w => .ldrpl (fieldX w)⟩,
   ⟨"00FD", 0x00FD, 0xFFFF, fun _ => .exit⟩]

/-- The complete instruction set, 43 rows (`30_encoding.md` R56). The order does not matter: the rows are pairwise disjoint
(R57; `Laws/Encoding.lean`, `opcodeTable_disjoint`). -/
def opcodeTable : List OpcodeRow :=
  displayRows ++ (controlRows ++ (loadAluRows ++ (indexRows ++ systemRows)))

/-- Decode an instruction word: exact match against the table, reading no state (`30_encoding.md` R57). -/
def decodeWord (w : Word) : Except DecodeError Instr :=
  match opcodeTable.find? (·.selects w) with
  | some r => .ok (r.build w)
  | none => .error (.unrecognized w)

/-- The word at the front of a byte list, high byte first (`20_memory.md` R42). -/
def wordOfBytes (hi lo : Byte) : Word := hi ++ lo

/-- Decode the instruction at the front of a byte list and give the bytes after it: every instruction has two bytes
(`30_encoding.md` R53). -/
def decode : List Byte → Except DecodeError (Instr × List Byte)
  | hi :: lo :: rest => (decodeWord (wordOfBytes hi lo)).map (·, rest)
  | [_] => .error .truncated
  | [] => .error .truncated

/-- Format ZN: twelve fixed bits, then N (`30_encoding.md` R54). -/
def formatZN (k : BitVec 12) (n : Count) : Word := k ++ (BitVec.ofFin n : BitVec 4)

/-- Format NNN: OP, then the 12-bit address (`30_encoding.md` R54). -/
def formatNNN (op : BitVec 4) (nnn : Addr12) : Word := op ++ nnn

/-- Formats XNN and Xkk: OP, X, then a byte, which is NN or fixed (`30_encoding.md` R54). -/
def formatXNN (op : BitVec 4) (x : Reg) (low : Byte) : Word := op ++ ((BitVec.ofFin x : BitVec 4) ++ low)

/-- Formats XYk and XYN: OP, X, Y, then a nibble, which is fixed or N (`30_encoding.md` R54). -/
def formatXYN (op : BitVec 4) (x y : Reg) (low : BitVec 4) : Word :=
  op ++ ((BitVec.ofFin x : BitVec 4) ++ ((BitVec.ofFin y : BitVec 4) ++ low))

/-- The word of an instruction: its pattern of `30_encoding.md` R56 with the operands in place (R62). -/
def encode : Instr → Word
  | .scd n => formatZN 0x00C n
  | .cls => 0x00E0
  | .ret => 0x00EE
  | .scr => 0x00FB
  | .scl => 0x00FC
  | .exit => 0x00FD
  | .lores => 0x00FE
  | .hires => 0x00FF
  | .jp nnn => formatNNN 0x1 nnn
  | .call nnn => formatNNN 0x2 nnn
  | .sei x nn => formatXNN 0x3 x nn
  | .snei x nn => formatXNN 0x4 x nn
  | .ser x y => formatXYN 0x5 x y 0x0
  | .ldi x nn => formatXNN 0x6 x nn
  | .addi x nn => formatXNN 0x7 x nn
  | .mov x y => formatXYN 0x8 x y 0x0
  | .or x y => formatXYN 0x8 x y 0x1
  | .and x y => formatXYN 0x8 x y 0x2
  | .xor x y => formatXYN 0x8 x y 0x3
  | .add x y => formatXYN 0x8 x y 0x4
  | .sub x y => formatXYN 0x8 x y 0x5
  | .shr x y => formatXYN 0x8 x y 0x6
  | .subn x y => formatXYN 0x8 x y 0x7
  | .shl x y => formatXYN 0x8 x y 0xE
  | .sner x y => formatXYN 0x9 x y 0x0
  | .ldidx nnn => formatNNN 0xA nnn
  | .jpoff nnn => formatNNN 0xB nnn
  | .rnd x nn => formatXNN 0xC x nn
  | .drw x y n => formatXYN 0xD x y (BitVec.ofFin n)
  | .skp x => formatXNN 0xE x 0x9E
  | .sknp x => formatXNN 0xE x 0xA1
  | .lddt x => formatXNN 0xF x 0x07
  | .waitk x => formatXNN 0xF x 0x0A
  | .stdt x => formatXNN 0xF x 0x15
  | .stst x => formatXNN 0xF x 0x18
  | .addidx x => formatXNN 0xF x 0x1E
  | .font x => formatXNN 0xF x 0x29
  | .bigfont x => formatXNN 0xF x 0x30
  | .bcd x => formatXNN 0xF x 0x33
  | .stm x => formatXNN 0xF x 0x55
  | .ldm x => formatXNN 0xF x 0x65
  | .strpl x => formatXNN 0xF x 0x75
  | .ldrpl x => formatXNN 0xF x 0x85

/-- The bytes of an instruction in memory order, high byte first (`30_encoding.md` R53, R62). -/
def encodeBytes (i : Instr) : List Byte := [(encode i).extractLsb' 8 8, (encode i).extractLsb' 0 8]

/-- The bytes, in memory order, of the instruction whose word is `w` cut to `nbits` bits; none when that is no 16-bit word. -/
def bytesOfTableWord (nbits w : Nat) : Option (List Byte) :=
  let cut := w % 2 ^ nbits
  if cut < 2 ^ 16 then some [BitVec.ofNat 8 (cut / 256), BitVec.ofNat 8 cut] else none

/-- What the decoder reads from the instruction whose bits are `w`, numbered as the opcode table numbers them. -/
def decodeTableWord (nbits w : Nat) : Option Instr :=
  match bytesOfTableWord nbits w with
  | none => none
  | some bytes =>
    match decode bytes with
    | .ok (i, _) => some i
    | .error _ => none

end Sys2Proof
end

