-- ==== Sys2Proof/Machine/State.lean ====
section
/-! DEFINITION. The state of the core as plain data, the reasons a step can stop, and the state after reset. -/

namespace Sys2Proof.Machine

/-- Memory: the bytes that differ from the reset contents, by strictly rising address (entry 23). -/
abbrev Memory := List Host.Cell

/-- The display buffer: 64 rows, row 0 at the top, of 128 one-bit cells (`10_state.md` R26). Column `x` of a row is bit `x`
of its bit vector (entry 14). -/
abbrev Display := Vector (BitVec 128) 64

/-- The kinds of MemoryFault (`60_exceptions.md` R122). -/
inductive MemoryFaultKind where
  | fetch
  | dataRead
  | dataWrite
  | fontWrite
  deriving DecidableEq, Repr

/-- The kinds of StackFault (`60_exceptions.md` R122). -/
inductive StackFaultKind where
  | overflow
  | underflow
  deriving DecidableEq, Repr

/-- FAULT.cause with its FAULT.kind (`10_state.md` R32, `60_exceptions.md` R122). Their numeric codes are `FaultCause.code`
and `FaultCause.kindCode`; the pairs of codes R122 does not list have no value here (entry 15). -/
inductive FaultCause where
  | none
  | memoryFault (kind : MemoryFaultKind)
  | stackFault (kind : StackFaultKind)
  deriving DecidableEq, Repr

/-- The sticky FAULT register (`60_exceptions.md` R125): cause and kind, FAULT_PC, FAULT_ADDR. -/
structure FaultReg where
  cause : FaultCause
  pc    : Word
  addr  : Word
  deriving DecidableEq, Repr

/-- The quirks configuration as four named toggles; set = legacy (`10_state.md` R30; D9 asks for four named Booleans). -/
structure Quirks where
  /-- Bit 0, Q_SHIFT: 8XY6 and 8XYE shift V[Y]. -/
  shift  : Bool
  /-- Bit 1, Q_JUMP: BNNN adds V[0]. -/
  jump   : Bool
  /-- Bit 2, Q_INDEX: FX55 and FX65 advance I. -/
  index  : Bool
  /-- Bit 3, Q_SCROLL: scrolls are unscaled in low resolution. -/
  scroll : Bool
  deriving DecidableEq, Repr

/-- The three inputs of a step (`10_state.md` R34). -/
structure StepInput where
  keyInput : Byte
  now      : Time
  rand     : Byte
  deriving DecidableEq, Repr

/-- The state of the core: everything `10_state.md` R35 lists, then the model's own fields (`report` to `tickPeriod`), which
stand for the spec's step inputs, its per-step output and its parameter TICK_PERIOD (entries 1, 3 and 13). -/
structure State where
  /-- V[0..15] (`10_state.md` R13). -/
  v          : Vector Byte 16
  /-- PC (`10_state.md` R15). -/
  pc         : Word
  /-- I, the index register (`10_state.md` R17). -/
  i          : Word
  /-- STACK[0..15] (`10_state.md` R19). -/
  stack      : Vector Word 16
  /-- SP, the number of stack entries in use, 0..16 (`10_state.md` R20; entry 16). -/
  sp         : Fin 17
  /-- DT, the delay timer (`10_state.md` R23). -/
  dt         : Byte
  /-- ST, the sound timer (`10_state.md` R24). -/
  st         : Byte
  /-- TDEADLINE, the next tick's deadline (`10_state.md` R25). -/
  tdeadline  : Time
  /-- DISP (`10_state.md` R26). -/
  disp       : Display
  /-- HIRES, 1 = high resolution (`10_state.md` R27). -/
  hires      : Bool
  /-- DIRTY, the display-updated flag (`10_state.md` R28). -/
  dirty      : Bool
  /-- EXIT, the exit flag (`10_state.md` R29). -/
  exit       : Bool
  /-- QUIRKS, latched at reset (`10_state.md` R30). -/
  quirks     : Quirks
  /-- RPL[0..7], the flag channel (`10_state.md` R31). -/
  rpl        : Vector Byte 8
  /-- FAULT (`10_state.md` R32). -/
  fault      : FaultReg
  /-- MEM[0..4095] (`10_state.md` R33). -/
  mem        : Memory
  /-- The output `report` of the last step: the unrecognized word it executed, if any (`60_exceptions.md` R123; entry 13). -/
  report     : Option Word
  /-- The inputs presented for the coming step (`10_state.md` R34; entry 1). -/
  input      : StepInput
  /-- The inputs the host presents before the steps after it, oldest first (entry 1). -/
  upcoming   : List StepInput
  /-- How many inputs were drawn as free values (entry 1). -/
  drawn      : Nat
  /-- TICK_PERIOD, the parameter (`00_scope.md` R6); no step changes it (entry 3). -/
  tickPeriod : Time
  deriving DecidableEq, Repr

/-- The reasons a step stops with a fault: NONE. The faults of the spec (`60_exceptions.md` R122) halt the core by writing the
FAULT register (R128), which is a next state; every step of the spec has one (R64, R71). Nothing raises a value of this type,
which is safe: no behaviour of the hardware is cut off (entry 11). -/
inductive Fault where
  deriving DecidableEq, Repr

/-- The reasons an instruction has no meaning. -/
inductive Refusal where
  /-- Raised by a rejected arm of `exec`, for an instruction without a meaning; no arm is rejected. Safe. -/
  | notModelled (mnemonic : String)
  deriving DecidableEq, Repr

/-- FAULT with no fault recorded (`10_state.md` R32). -/
def FaultReg.clear : FaultReg := ⟨.none, 0, 0⟩

/-- The machine right after the first reset (`70_reset_and_hazards.md` R142, R143), before any ROM is loaded. DESIGN CHOICE:
TDEADLINE (entry 4), RPL (entry 5), `quirks_in` = 0b0000 (entry 6), the presented inputs (entry 2), TICK_PERIOD (entry 3). -/
def State.reset : State where
  v := Vector.replicate 16 0
  pc := Config.programStart
  i := 0
  stack := Vector.replicate 16 0
  sp := 0
  dt := 0
  st := 0
  tdeadline := Config.tdeadlineInit
  disp := Vector.replicate 64 0
  hires := false
  dirty := false
  exit := false
  quirks := ⟨false, false, false, false⟩
  rpl := Config.rplInit
  fault := FaultReg.clear
  mem := []
  report := none
  input := ⟨0, 0, 0⟩
  upcoming := []
  drawn := 0
  tickPeriod := Config.tickPeriodInit

end Sys2Proof.Machine
end

