-- ==== Sys2Proof/Machine/Params.lean ====
section
/-! DEFINITION. The constants and parameters the SPEC fixes by its own decision (`00_scope.md` R6), at its defaults. They stand
here, not in Config.lean, so that a finding about the real core can mend one. -/

namespace Sys2Proof.Machine

/-- FONT_BASE, the first byte of the small font (`00_scope.md` R5). -/
def fontBase : Nat := 0x050

/-- LARGE_FONT_BASE, the spec's decision D17 (`20_memory.md` R41). -/
def largeFontBase : Nat := 0x0A0

/-- LARGE_FONT_TABLE has ten glyphs of ten bytes, the spec's decision D17 (`20_memory.md` R41). -/
def largeFontSize : Nat := 100

/-- FONT_REGION_END, the last write-protected byte, the spec's decision D17 and conflict C2 (`20_memory.md` R38). -/
def fontRegionEnd : Nat := 0x13F

/-- SMALL_FONT_TABLE, glyphs 0 to F, the spec's general-knowledge default (`20_memory.md` R40; entry 8). -/
def smallFontTable : List Byte :=
  [0xF0, 0x90, 0x90, 0x90, 0xF0] ++ [0x20, 0x60, 0x20, 0x20, 0x70] ++
  [0xF0, 0x10, 0xF0, 0x80, 0xF0] ++ [0xF0, 0x10, 0xF0, 0x10, 0xF0] ++
  [0x90, 0x90, 0xF0, 0x10, 0x10] ++ [0xF0, 0x80, 0xF0, 0x10, 0xF0] ++
  [0xF0, 0x80, 0xF0, 0x90, 0xF0] ++ [0xF0, 0x10, 0x20, 0x40, 0x40] ++
  [0xF0, 0x90, 0xF0, 0x90, 0xF0] ++ [0xF0, 0x90, 0xF0, 0x10, 0xF0] ++
  [0xF0, 0x90, 0xF0, 0x90, 0x90] ++ [0xE0, 0x90, 0xE0, 0x90, 0xE0] ++
  [0xF0, 0x80, 0x80, 0x80, 0xF0] ++ [0xE0, 0x90, 0x90, 0x90, 0xE0] ++
  [0xF0, 0x80, 0xF0, 0x80, 0xF0] ++ [0xF0, 0x80, 0xF0, 0x80, 0x80]

/-- The two values of the parameter FX1E_VF_MODE (`43_index_memory.md` R94). -/
inductive IndexFlagMode where
  /-- VF is written 1 on overflow and 0 otherwise. -/
  | writeBoth
  /-- VF is written 1 on overflow and left alone otherwise. -/
  | setOnly
  deriving DecidableEq, Repr

/-- FX1E_VF_MODE at its default `write_both` (D19; entry 9). -/
def fx1eVfMode : IndexFlagMode := .writeBoth

/-- FX29_LARGE_PATH at its default true (D18; entry 10). -/
def fx29LargePath : Bool := true

end Sys2Proof.Machine
end

