-- ==== Sys2Proof/Machine/Memory.lean ====
section
/-! DEFINITION. The named operations over memory: what an unlisted address holds, reading and writing one byte, the checks of
`20_memory.md`, the instruction fetch, and the canonical form. -/

namespace Sys2Proof.Machine

/-- The content of memory after reset, which is what an unlisted address reads as (`20_memory.md` R39): the small font, the
large font (free bytes, entry 7), zero elsewhere. -/
def resetByte (a : Nat) : Byte :=
  if fontBase ≤ a ∧ a < fontBase + 80 then smallFontTable.getD (a - fontBase) 0
  else if largeFontBase ≤ a ∧ a < largeFontBase + largeFontSize then Config.largeFontByte (a - largeFontBase)
  else 0

/-- The byte at address `a`. -/
def Memory.read : Memory → Nat → Byte
  | [], a => resetByte a
  | (k, b) :: rest, a => if a = k then b else Memory.read rest a

/-- The entry for `b` at `a`, in front of `m`: none when `b` is what the unlisted address reads as. -/
def Memory.put (a : Nat) (b : Byte) (m : Memory) : Memory := if b = resetByte a then m else (a, b) :: m

/-- Store `b` at address `a`, keeping the canonical form. -/
def Memory.write : Memory → Nat → Byte → Memory
  | [], a, b => Memory.put a b []
  | (k, c) :: rest, a, b =>
    if a < k then Memory.put a b ((k, c) :: rest)
    else if a = k then Memory.put a b rest
    else (k, c) :: Memory.write rest a b

/-- Store bytes at ascending addresses from `a` (`20_memory.md` R43). -/
def Memory.writeBytes (m : Memory) (a : Nat) : List Byte → Memory
  | [] => m
  | b :: bs => Memory.writeBytes (m.write a b) (a + 1) bs

/-- The `n` bytes from `a` upwards (`20_memory.md` R43). -/
def Memory.readBytes (m : Memory) (a n : Nat) : List Byte := (List.range n).map fun k => m.read (a + k)

/-- The canonical form: addresses strictly rising and inside memory, no entry equal to what the unlisted address reads as. -/
def Memory.wf : Memory → Bool
  | [] => true
  | (a, b) :: rest =>
    decide (a < Config.memSize) && decide (b ≠ resetByte a) && rest.all (fun c => decide (a < c.1)) && Memory.wf rest

/-- Address `a` lies in the write-protected font region (`20_memory.md` R45). -/
def inFontRegion (a : Nat) : Bool := decide (fontBase ≤ a) && decide (a ≤ fontRegionEnd)

/-- The range `base..base+n-1` reaches above 0x0FFF (`20_memory.md` R44, R45). -/
def outOfMemory (base n : Nat) : Bool := decide (0 < n) && decide (0x0FFF < base + n - 1)

/-- The check of a read of `n` bytes at `base`, made before anything is written (`43_index_memory.md` R99, `44_display.md`
R102): the fault it raises, with its address. -/
def checkRead (base n : Nat) : Option (FaultCause × Word) :=
  if outOfMemory base n then some (.memoryFault .dataRead, 0x1000) else none

/-- `CheckWrite(base, n)` (`43_index_memory.md` R100): the bounds of the whole range, then the font region in ascending order.
The fault it raises, with its address. -/
def checkWrite (base n : Nat) : Option (FaultCause × Word) :=
  if outOfMemory base n then some (.memoryFault .dataWrite, BitVec.ofNat 16 (max base 0x1000))
  else
    match (List.range' base n).find? inFontRegion with
    | some a => some (.memoryFault .fontWrite, BitVec.ofNat 16 a)
    | none => none

/-- `Fetch16(addr)` (`20_memory.md` R42): big-endian; none when it raises MemoryFault(Fetch). -/
def fetch16 (m : Memory) (addr : Word) : Option Word :=
  if 0x0FFE < addr.toNat then none else some (m.read addr.toNat ++ m.read (addr.toNat + 1))

end Sys2Proof.Machine
end

