-- ==== Sys2Proof/Machine/Screen.lean ====
section
/-! DEFINITION. The named operations over the display buffer: one cell, the cells of a logical pixel and of a sprite, the XOR of
a cell with its collision, and the three scrolls. Cells are written (column, row), as in `44_display.md` R103. -/

namespace Sys2Proof.Machine

/-- DISP[y][x]; false outside the buffer (`10_state.md` R26). -/
def Display.cell (d : Display) (x y : Nat) : Bool := if h : y < 64 then d[y].getLsbD x else false

/-- `DISP[y][x] <- DISP[y][x] ^ 1` for a cell of the buffer (`44_display.md` R102). -/
def Display.flip (d : Display) (x y : Nat) : Display :=
  if h : y < 64 then d.set y (d[y] ^^^ BitVec.twoPow 128 x) else d

/-- The cleared buffer (`44_display.md` R101). -/
def Display.blank : Display := Vector.replicate 64 0

/-- XOR the cell `c` with 1 and note a collision, a cell going from 1 to 0 (`44_display.md` R102). -/
def Display.xorCell (p : Display × Bool) (c : Nat × Nat) : Display × Bool :=
  (Display.flip p.1 c.1 c.2, p.2 || Display.cell p.1 c.1 c.2)

/-- The logical width W (`10_state.md` R27). -/
def logicalWidth (hires : Bool) : Nat := if hires then 128 else 64

/-- The logical height H (`10_state.md` R27). -/
def logicalHeight (hires : Bool) : Nat := if hires then 64 else 32

/-- `Cells(lx, ly)`: the physical cells of a logical pixel (`44_display.md` R103). -/
def pixelCells (hires : Bool) (lx ly : Nat) : List (Nat × Nat) :=
  if hires then [(lx, ly)]
  else [(2 * lx, 2 * ly), (2 * lx + 1, 2 * ly), (2 * lx, 2 * ly + 1), (2 * lx + 1, 2 * ly + 1)]

/-- The cells a sprite row `b` at logical row `ly` flips: bit 7 is the leftmost pixel, columns past the right edge are clipped
(`44_display.md` R102). -/
def rowCells (hires : Bool) (x0 ly : Nat) (b : Byte) : List (Nat × Nat) :=
  (List.range 8).flatMap fun c =>
    if x0 + c < logicalWidth hires ∧ b.getLsbD (7 - c) = true then pixelCells hires (x0 + c) ly else []

/-- The cells a sprite flips, its first row at logical row `ly`: rows past the bottom edge are clipped (`44_display.md` R102). -/
def spriteCells (hires : Bool) (x0 : Nat) : Nat → List Byte → List (Nat × Nat)
  | _, [] => []
  | ly, b :: bs =>
    (if ly < logicalHeight hires then rowCells hires x0 ly b else []) ++ spriteCells hires x0 (ly + 1) bs

/-- Draw: XOR every cell of the sprite, and say whether any collided (`44_display.md` R102). -/
def Display.draw (d : Display) (hires : Bool) (x0 y0 : Nat) (rows : List Byte) : Display × Bool :=
  (spriteCells hires x0 y0 rows).foldl Display.xorCell (d, false)

/-- new[y][x] = old[y-a][x] for y ≥ a, and 0 for y < a (`44_display.md` R104). -/
def Display.scrollDown (d : Display) (a : Nat) : Display :=
  Vector.ofFn fun y => if a ≤ y.val then d[y.val - a] else 0

/-- new[y][x] = old[y][x-a] for x ≥ a, and 0 for x < a (`44_display.md` R105). -/
def Display.scrollRight (d : Display) (a : Nat) : Display := Vector.ofFn fun y => d[y] <<< a

/-- new[y][x] = old[y][x+a] for x ≤ 127 - a, and 0 otherwise (`44_display.md` R106). -/
def Display.scrollLeft (d : Display) (a : Nat) : Display := Vector.ofFn fun y => d[y] >>> a

/-- `ScrollAmount(n)`: doubled in low resolution unless Q_SCROLL is set (`44_display.md` R109). -/
def scrollAmount (hires legacy : Bool) (n : Nat) : Nat := if hires || legacy then n else 2 * n

end Sys2Proof.Machine
end

