-- ==== Sys2Proof/Machine/Ops.lean ====
section
/-! DEFINITION. The named operations over the state that instructions and the step share: registers, PC, the call stack, the
timer phase, fault entry, stores, the presentation of inputs. -/

namespace Sys2Proof.Machine

/-- What every meaning answers. -/
abbrev Result := Host.Outcome State Fault Refusal

/-- `V[x]` (`10_state.md` R13). -/
def State.reg (s : State) (x : Reg) : Byte := s.v[x]

/-- `V[x] <- b` (`10_state.md` R13: no register is hard-wired). -/
def State.setReg (s : State) (x : Reg) (b : Byte) : State := { s with v := s.v.set x b }

/-- The write-order law: V[x] first, VF last, both values computed before (`42_load_alu.md` R80). -/
def State.setRegFlag (s : State) (x : Reg) (result flag : Byte) : State := (s.setReg x result).setReg vf flag

/-- `PC <- target` (`10_state.md` R15, R16). -/
def State.setPc (s : State) (target : Word) : State := { s with pc := target }

/-- `I <- a` (`10_state.md` R17). -/
def State.setIndex (s : State) (a : Word) : State := { s with i := a }

/-- `Skip()` when the condition holds (`40_step_cycle.md` R70). -/
def State.skipIf (s : State) (cond : Bool) : State := { s with pc := if cond then s.pc + 2 else s.pc }

/-- DISP written, DIRTY set: the display instructions that change the buffer (`44_display.md` R110). -/
def State.setDisp (s : State) (d : Display) : State := { s with disp := d, dirty := true }

/-- FAULT.cause is not None: the core is halted (`60_exceptions.md` R129). -/
def State.halted (s : State) : Bool := decide (s.fault.cause ≠ .none)

/-- The 2-bit code of FAULT.cause (`60_exceptions.md` R122). -/
def FaultCause.code : FaultCause → BitVec 2
  | .none => 0
  | .memoryFault _ => 1
  | .stackFault _ => 2

/-- The 2-bit code of FAULT.kind (`60_exceptions.md` R122). -/
def FaultCause.kindCode : FaultCause → BitVec 2
  | .none => 0
  | .memoryFault .fetch => 0
  | .memoryFault .dataRead => 1
  | .memoryFault .dataWrite => 2
  | .memoryFault .fontWrite => 3
  | .stackFault .overflow => 0
  | .stackFault .underflow => 1

/-- TAKING A FAULT, fault entry (`60_exceptions.md` R128): PC goes back to the faulting instruction at `pc0`, FAULT is written,
the report is none, all else is kept. There is no handler and no return (R132); the core is halted after it (R129). -/
def takeFault (cause : FaultCause) (addr pc0 : Word) (s : State) : State :=
  { s with pc := pc0, fault := ⟨cause, pc0, addr⟩, report := none }

/-- A fault raised by an executing instruction: PC was advanced by 2, so the instruction is at PC - 2
(`60_exceptions.md` R126 to R128). -/
def raiseFault (cause : FaultCause) (addr : Word) (s : State) : Result :=
  .next (takeFault cause addr (s.pc - 2) s)

/-- Go on with `k` when a range check raises nothing, else take its fault before anything is written
(`60_exceptions.md` R126). -/
def guarded (check : Option (FaultCause × Word)) (k : State → State) (s : State) : Result :=
  match check with
  | some (cause, addr) => raiseFault cause addr s
  | none => .next (k s)

/-- Store bytes at `base`, all or nothing, then go on with `k` (`43_index_memory.md` R100). -/
def storeBytes (base : Nat) (bytes : List Byte) (k : State → State) (s : State) : Result :=
  guarded (checkWrite base bytes.length) (fun s => k { s with mem := s.mem.writeBytes base bytes }) s

/-- `Push(v)` and then `k`: StackFault(Overflow) at SP = 16 (`10_state.md` R21). -/
def push (value : Word) (k : State → State) (s : State) : Result :=
  if h : s.sp.val < 16 then
    .next (k { s with stack := s.stack.set s.sp.val value, sp := ⟨s.sp.val + 1, by omega⟩ })
  else raiseFault (.stackFault .overflow) 0 s

/-- `Pop()` and then `k` on the popped value: StackFault(Underflow) at SP = 0; the entry keeps its value (`10_state.md` R22). -/
def pop (k : Word → State → State) (s : State) : Result :=
  if h : 0 < s.sp.val then
    .next (k (s.stack[s.sp.val - 1]'(by omega)) { s with sp := ⟨s.sp.val - 1, by omega⟩ })
  else raiseFault (.stackFault .underflow) 0 s

/-- One decrement, floored at 0 (`40_step_cycle.md` R65). -/
def decFloor (b : Byte) : Byte := if b = 0 then 0 else b - 1

/-- The tick test `now >= TDEADLINE` (`40_step_cycle.md` R65). -/
def State.tickDue (s : State) : Bool := decide (s.tdeadline ≤ s.input.now)

/-- `TimerPhase(now)`: at most one decrement of each timer, the deadline advanced by one period (`40_step_cycle.md` R65). -/
def State.timerPhase (s : State) : State :=
  { s with
    dt := if s.tickDue then decFloor s.dt else s.dt
    st := if s.tickDue then decFloor s.st else s.st
    tdeadline := if s.tickDue then s.tdeadline + s.tickPeriod else s.tdeadline }

/-- The start of a step that is not halted: the report is cleared, then the timer phase runs (`40_step_cycle.md` R64). -/
def State.beginStep (s : State) : State := State.timerPhase { s with report := none }

/-- PC advanced past the fetched word (`40_step_cycle.md` R67). -/
def State.advance (s : State) : State := { s with pc := s.pc + 2 }

/-- An unrecognized word: the report, nothing else (`40_step_cycle.md` R69). -/
def reportWord (w : Word) (s : State) : State := { s with report := some w }

/-- The free inputs of the `n`-th draw (entry 1). -/
def freeInput (n : Nat) : StepInput := ⟨Config.freeKeyInput n, Config.freeNow n, Config.freeRand n⟩

/-- Between two steps the host presents the next inputs: the next of `upcoming`, or free values once it is empty
(`00_scope.md` R11, R12; entry 1). -/
def State.presentNext (s : State) : State :=
  match s.upcoming with
  | next :: later => { s with input := next, upcoming := later }
  | [] => { s with input := freeInput s.drawn, drawn := s.drawn + 1 }

/-- Apply `f` to the next state of an outcome; a fault or a refusal stays. -/
def mapNext (f : State → State) : Result → Result
  | .next s => .next (f s)
  | .fault r => .fault r
  | .refused r => .refused r

end Sys2Proof.Machine
end

