-- ==== Sys2Proof/Machine/Operands.lean ====
section
/-! DEFINITION. Every operand form: immediates and addresses widened to 16 bits, the effective address "I plus an offset",
register ranges, the decimal digits, the quirk-selected sources, the keypad operand, the sprite operand. -/

namespace Sys2Proof.Machine

/-- `zext_16(NNN)` (`30_encoding.md` R55). -/
def zextAddr (nnn : Addr12) : Word := nnn.setWidth 16

/-- `zext_16` of a byte (`30_encoding.md` R55). -/
def zextByte (b : Byte) : Word := b.setWidth 16

/-- X = `instr[11:8]` of BNNN: the top nibble of NNN (`41_control_flow.md` R75). -/
def jumpReg (nnn : Addr12) : Reg := (nnn.extractLsb' 8 4).toFin

/-- The register BNNN adds: V[0] under Q_JUMP, else V[X] (`41_control_flow.md` R75). -/
def State.jumpBase (s : State) (nnn : Addr12) : Byte := s.reg (if s.quirks.jump then 0 else jumpReg nnn)

/-- The operand of 8XY6 and 8XYE: V[Y] under Q_SHIFT, else V[X] (`42_load_alu.md` R89, R91). -/
def State.shiftOperand (s : State) (x y : Reg) : Byte := s.reg (if s.quirks.shift then y else x)

/-- The base address of a memory operand: I, never reduced modulo 4096 (`20_memory.md` R44). -/
def State.base (s : State) : Nat := s.i.toNat

/-- V[0..x] in ascending order (`43_index_memory.md` R98). -/
def State.regsUpTo (s : State) (x : Reg) : List Byte := s.v.toList.take (x.val + 1)

/-- V[0..x] replaced by the bytes from `base` upwards (`43_index_memory.md` R99). -/
def State.loadRegs (s : State) (x : Reg) (base : Nat) : State :=
  { s with v := Vector.ofFn fun k => if k.val ≤ x.val then s.mem.read (base + k.val) else s.v[k] }

/-- Q_INDEX's increment `I <- (I + X + 1) mod 0x1000` (`43_index_memory.md` R98, R99). -/
def State.bumpIndex (s : State) (x : Reg) : State :=
  { s with i := if s.quirks.index then BitVec.ofNat 16 ((s.i.toNat + x.val + 1) % 0x1000) else s.i }

/-- The decimal digits of a byte, hundreds first (`43_index_memory.md` R97). -/
def bcdDigits (b : Byte) : List Byte :=
  [BitVec.ofNat 8 (b.toNat / 100), BitVec.ofNat 8 (b.toNat / 10 % 10), BitVec.ofNat 8 (b.toNat % 10)]

/-- The sum of FX1E, 17 bits (`43_index_memory.md` R94). -/
def State.indexSum (s : State) (x : Reg) : Nat := s.i.toNat + (s.reg x).toNat

/-- The address of small glyph `v` (`43_index_memory.md` R95). -/
def smallGlyph (v : Byte) : Word := BitVec.ofNat 16 (fontBase + v.toNat * 5)

/-- The address of large glyph number `n` (`43_index_memory.md` R96). -/
def largeGlyph (n : Nat) : Word := BitVec.ofNat 16 (largeFontBase + n * 10)

/-- FX29's address, for either value of FX29_LARGE_PATH (`43_index_memory.md` R95). -/
def fontAddress (largePath : Bool) (v : Byte) : Word :=
  if v.toNat < 0x10 ∨ largePath = false then smallGlyph v else largeGlyph (v.toNat - 0x10)

/-- `KeyDown(k)`: bit 4 of `key_input` (`10_state.md` R34). -/
def keyDown (k : Byte) : Bool := k.getLsbD 4

/-- `KeyCode(k)`: bits 3:0 of `key_input` (`10_state.md` R34). -/
def keyCode (k : Byte) : BitVec 4 := k.extractLsb' 0 4

/-- `KeyIsDown(v, k)`: an 8-bit comparison with the one key that is down (`45_keypad_timer_system.md` R120). -/
def keyIsDown (v k : Byte) : Bool := keyDown k && decide (v = (keyCode k).setWidth 8)

/-- The base column of DXYN: V[X] mod W (`44_display.md` R102). -/
def State.drawColumn (s : State) (x : Reg) : Nat := (s.reg x).toNat % logicalWidth s.hires

/-- The base row of DXYN: V[Y] mod H (`44_display.md` R102). -/
def State.drawRow (s : State) (y : Reg) : Nat := (s.reg y).toNat % logicalHeight s.hires

/-- The sprite of DXYN: the N bytes from I upwards (`44_display.md` R102). -/
def State.sprite (s : State) (n : Count) : List Byte := s.mem.readBytes s.base n.val

/-- The cells a scroll of nominal amount `n` moves in this state (`44_display.md` R109). -/
def State.scrollCells (s : State) (n : Nat) : Nat := scrollAmount s.hires s.quirks.scroll n

/-- min(X, 7), the last register of FX75 and FX85 (`45_keypad_timer_system.md` R117). -/
def rplLast (x : Reg) : Nat := min x.val 7

end Sys2Proof.Machine
end

