-- ==== Sys2Proof/Machine/Flags.lean ====
section
/-! DEFINITION. Every computation of the one flag, VF: each gives the whole byte written to V[15], 0 or 1
(`10_state.md` R14). -/

namespace Sys2Proof.Machine

/-- A flag as the byte written to VF. -/
def flagByte (b : Bool) : Byte := if b then 1 else 0

/-- 8XY4: VF = carry out of the 8-bit sum (`42_load_alu.md` R87). -/
def carryFlag (a b : Byte) : Byte := flagByte (decide (255 < a.toNat + b.toNat))

/-- 8XY5 and 8XY7: VF = no borrow in `a - b` (`42_load_alu.md` R88, R90). -/
def noBorrowFlag (a b : Byte) : Byte := flagByte (decide (b.toNat ≤ a.toNat))

/-- 8XY6: VF = bit 0 of the operand (`42_load_alu.md` R89). -/
def shiftedOutLow (a : Byte) : Byte := flagByte (a.getLsbD 0)

/-- 8XYE: VF = bit 7 of the operand (`42_load_alu.md` R91). -/
def shiftedOutHigh (a : Byte) : Byte := flagByte (a.getLsbD 7)

/-- FX1E: VF = overflow past 0xFFF; without overflow the parameter FX1E_VF_MODE decides between 0 and the old VF
(`43_index_memory.md` R94). -/
def indexFlag (mode : IndexFlagMode) (sum : Nat) (old : Byte) : Byte :=
  if 0x0FFF < sum then 1
  else
    match mode with
    | .writeBoth => 0
    | .setOnly => old

/-- DXYN: VF = 1 when at least one cell went from 1 to 0 (`44_display.md` R102). -/
def collisionFlag (collided : Bool) : Byte := flagByte collided

end Sys2Proof.Machine
end

