-- ==== Sys2Proof/Machine/ControlFlow.lean ====
section
/-! DEFINITION. The meanings of `41_control_flow.md`. On entry PC is the address of the instruction plus 2
(`40_step_cycle.md` R67). -/

namespace Sys2Proof.Machine

/-- 00EE: `PC <- Pop()` (`41_control_flow.md` R72). -/
def execRet (s : State) : Result := pop (fun target s => s.setPc target) s

/-- 1NNN: `PC <- zext_16(NNN)` (`41_control_flow.md` R73). -/
def execJp (nnn : Addr12) (s : State) : Result := .next (s.setPc (zextAddr nnn))

/-- 2NNN: `Push(PC)`, the advanced PC, then `PC <- zext_16(NNN)` (`41_control_flow.md` R74). -/
def execCall (nnn : Addr12) (s : State) : Result := push s.pc (fun s => s.setPc (zextAddr nnn)) s

/-- BNNN: a 16-bit sum, not reduced modulo 0x1000 (`41_control_flow.md` R75). -/
def execJpoff (nnn : Addr12) (s : State) : Result :=
  .next (s.setPc (zextByte (s.jumpBase nnn) + zextAddr nnn))

/-- 3XNN: skip if V[X] = NN (`41_control_flow.md` R76). -/
def execSei (x : Reg) (nn : Byte) (s : State) : Result := .next (s.skipIf (decide (s.reg x = nn)))

/-- 4XNN: skip if V[X] ≠ NN (`41_control_flow.md` R77). -/
def execSnei (x : Reg) (nn : Byte) (s : State) : Result := .next (s.skipIf (decide (s.reg x ≠ nn)))

/-- 5XY0: skip if V[X] = V[Y] (`41_control_flow.md` R78). -/
def execSer (x y : Reg) (s : State) : Result := .next (s.skipIf (decide (s.reg x = s.reg y)))

/-- 9XY0: skip if V[X] ≠ V[Y] (`41_control_flow.md` R79). -/
def execSner (x y : Reg) (s : State) : Result := .next (s.skipIf (decide (s.reg x ≠ s.reg y)))

end Sys2Proof.Machine
end

