-- ==== Sys2Proof/Machine/Display.lean ====
section
/-! DEFINITION. The meanings of `44_display.md`. -/

namespace Sys2Proof.Machine

/-- 00E0: clear the whole physical buffer, DIRTY set (`44_display.md` R101). -/
def execCls (s : State) : Result := .next (s.setDisp Display.blank)

/-- DXYN: check all N sprite bytes, XOR the sprite's cells, then VF = collision, DIRTY set (`44_display.md` R102). -/
def execDrw (x y : Reg) (n : Count) (s : State) : Result :=
  guarded (checkRead s.base n.val)
    (fun s =>
      let drawn := Display.draw s.disp s.hires (s.drawColumn x) (s.drawRow y) (s.sprite n)
      (s.setDisp drawn.1).setReg vf (collisionFlag drawn.2)) s

/-- 00CN: scroll down by ScrollAmount(N) rows, DIRTY set (`44_display.md` R104). -/
def execScd (n : Count) (s : State) : Result := .next (s.setDisp (Display.scrollDown s.disp (s.scrollCells n.val)))

/-- 00FB: scroll right by ScrollAmount(4) columns, DIRTY set (`44_display.md` R105). -/
def execScr (s : State) : Result := .next (s.setDisp (Display.scrollRight s.disp (s.scrollCells 4)))

/-- 00FC: scroll left by ScrollAmount(4) columns, DIRTY set (`44_display.md` R106). -/
def execScl (s : State) : Result := .next (s.setDisp (Display.scrollLeft s.disp (s.scrollCells 4)))

/-- 00FE: low resolution, DISP and DIRTY unchanged (`44_display.md` R107). -/
def execLores (s : State) : Result := .next { s with hires := false }

/-- 00FF: high resolution, DISP and DIRTY unchanged (`44_display.md` R108). -/
def execHires (s : State) : Result := .next { s with hires := true }

end Sys2Proof.Machine
end

