-- ==== Sys2Proof/Machine/IndexMemory.lean ====
section
/-! DEFINITION. The meanings of `43_index_memory.md`. -/

namespace Sys2Proof.Machine

/-- ANNN: `I <- zext_16(NNN)` (`43_index_memory.md` R93). -/
def execLdidx (nnn : Addr12) (s : State) : Result := .next (s.setIndex (zextAddr nnn))

/-- FX1E: `I <- (I + V[X]) mod 0x1000`, VF = overflow; V[X] is read before VF is written (`43_index_memory.md` R94). -/
def execAddidx (x : Reg) (s : State) : Result :=
  .next ((s.setIndex (BitVec.ofNat 16 (s.indexSum x % 0x1000))).setReg vf
    (indexFlag fx1eVfMode (s.indexSum x) (s.reg vf)))

/-- FX29: I points at the font glyph of V[X] (`43_index_memory.md` R95). -/
def execFont (x : Reg) (s : State) : Result := .next (s.setIndex (fontAddress fx29LargePath (s.reg x)))

/-- FX30: I points at the large-font glyph of V[X] (`43_index_memory.md` R96). -/
def execBigfont (x : Reg) (s : State) : Result := .next (s.setIndex (largeGlyph (s.reg x).toNat))

/-- FX33: the three digits of V[X] at I, I+1, I+2; I unchanged (`43_index_memory.md` R97). -/
def execBcd (x : Reg) (s : State) : Result := storeBytes s.base (bcdDigits (s.reg x)) (fun s => s) s

/-- FX55: V[0..X] at I upwards, then Q_INDEX's increment (`43_index_memory.md` R98). -/
def execStm (x : Reg) (s : State) : Result := storeBytes s.base (s.regsUpTo x) (fun s => s.bumpIndex x) s

/-- FX65: V[0..X] from I upwards, then Q_INDEX's increment (`43_index_memory.md` R99). -/
def execLdm (x : Reg) (s : State) : Result :=
  guarded (checkRead s.base (x.val + 1)) (fun s => (s.loadRegs x s.base).bumpIndex x) s

end Sys2Proof.Machine
end

