-- ==== Sys2Proof/Machine/LoadAlu.lean ====
section
/-! DEFINITION. The meanings of `42_load_alu.md`. The sources are read before anything is written, and the flag is written
last (R80). -/

namespace Sys2Proof.Machine

/-- 6XNN: `V[X] <- NN` (`42_load_alu.md` R81). -/
def execLdi (x : Reg) (nn : Byte) (s : State) : Result := .next (s.setReg x nn)

/-- 7XNN: wrapping add, no flag (`42_load_alu.md` R82). -/
def execAddi (x : Reg) (nn : Byte) (s : State) : Result := .next (s.setReg x (s.reg x + nn))

/-- 8XY0: `V[X] <- V[Y]` (`42_load_alu.md` R83). -/
def execMov (x y : Reg) (s : State) : Result := .next (s.setReg x (s.reg y))

/-- 8XY1, VF unchanged (`42_load_alu.md` R84). -/
def execOr (x y : Reg) (s : State) : Result := .next (s.setReg x (s.reg x ||| s.reg y))

/-- 8XY2, VF unchanged (`42_load_alu.md` R85). -/
def execAnd (x y : Reg) (s : State) : Result := .next (s.setReg x (s.reg x &&& s.reg y))

/-- 8XY3, VF unchanged (`42_load_alu.md` R86). -/
def execXor (x y : Reg) (s : State) : Result := .next (s.setReg x (s.reg x ^^^ s.reg y))

/-- 8XY4: wrapping add, VF = carry (`42_load_alu.md` R87). -/
def execAdd (x y : Reg) (s : State) : Result :=
  .next (s.setRegFlag x (s.reg x + s.reg y) (carryFlag (s.reg x) (s.reg y)))

/-- 8XY5: wrapping subtract, VF = no borrow (`42_load_alu.md` R88). -/
def execSub (x y : Reg) (s : State) : Result :=
  .next (s.setRegFlag x (s.reg x - s.reg y) (noBorrowFlag (s.reg x) (s.reg y)))

/-- 8XY6: logical shift right by one of the quirk-selected operand, VF = its bit 0 (`42_load_alu.md` R89). -/
def execShr (x y : Reg) (s : State) : Result :=
  .next (s.setRegFlag x (s.shiftOperand x y >>> 1) (shiftedOutLow (s.shiftOperand x y)))

/-- 8XY7: reverse subtract, VF = no borrow (`42_load_alu.md` R90). -/
def execSubn (x y : Reg) (s : State) : Result :=
  .next (s.setRegFlag x (s.reg y - s.reg x) (noBorrowFlag (s.reg y) (s.reg x)))

/-- 8XYE: shift left by one of the quirk-selected operand, VF = its bit 7 (`42_load_alu.md` R91). -/
def execShl (x y : Reg) (s : State) : Result :=
  .next (s.setRegFlag x (s.shiftOperand x y <<< 1) (shiftedOutHigh (s.shiftOperand x y)))

/-- CXNN: `V[X] <- rand & NN`, `rand` the input of this step (`42_load_alu.md` R92). -/
def execRnd (x : Reg) (nn : Byte) (s : State) : Result := .next (s.setReg x (s.input.rand &&& nn))

end Sys2Proof.Machine
end

