-- ==== Sys2Proof/Machine/System.lean ====
section
/-! DEFINITION. The meanings of `45_keypad_timer_system.md`: keypad, timers, RPL flags, exit. -/

namespace Sys2Proof.Machine

/-- EX9E: skip if the key named by V[X] is down (`45_keypad_timer_system.md` R111). -/
def execSkp (x : Reg) (s : State) : Result := .next (s.skipIf (keyIsDown (s.reg x) s.input.keyInput))

/-- EXA1: skip if the key named by V[X] is not down (`45_keypad_timer_system.md` R112). -/
def execSknp (x : Reg) (s : State) : Result := .next (s.skipIf (!keyIsDown (s.reg x) s.input.keyInput))

/-- FX0A: take the key that is down, else go back to this instruction (`45_keypad_timer_system.md` R113). -/
def execWaitk (x : Reg) (s : State) : Result :=
  .next (if keyDown s.input.keyInput then s.setReg x ((keyCode s.input.keyInput).setWidth 8)
    else s.setPc (s.pc - 2))

/-- FX07: `V[X] <- DT`, after this step's timer phase (`45_keypad_timer_system.md` R114). -/
def execLddt (x : Reg) (s : State) : Result := .next (s.setReg x s.dt)

/-- FX15: `DT <- V[X]`, TDEADLINE unchanged (`45_keypad_timer_system.md` R115). -/
def execStdt (x : Reg) (s : State) : Result := .next { s with dt := s.reg x }

/-- FX18: `ST <- V[X]`, TDEADLINE unchanged (`45_keypad_timer_system.md` R116). -/
def execStst (x : Reg) (s : State) : Result := .next { s with st := s.reg x }

/-- FX75: `RPL[k] <- V[k]` for k up to min(X, 7) (`45_keypad_timer_system.md` R117). -/
def execStrpl (x : Reg) (s : State) : Result :=
  .next { s with rpl := Vector.ofFn fun k => if k.val ≤ rplLast x then s.v[k.val] else s.rpl[k] }

/-- FX85: `V[k] <- RPL[k]` for k up to min(X, 7) (`45_keypad_timer_system.md` R118). -/
def execLdrpl (x : Reg) (s : State) : Result :=
  .next { s with v := Vector.ofFn fun k => if h : k.val ≤ rplLast x ∧ k.val < 8 then s.rpl[k.val] else s.v[k] }

/-- 00FD: `EXIT <- 1`; the core does not halt (`45_keypad_timer_system.md` R119). -/
def execExit (s : State) : Result := .next { s with exit := true }

end Sys2Proof.Machine
end

