-- ==== Sys2Proof/Machine/Step.lean ====
section
/-! DEFINITION. The one transition of the core (`40_step_cycle.md` R64), and how the host places an instruction where the next
step fetches it. -/

namespace Sys2Proof.Machine

/-- `step` (`40_step_cycle.md` R64), with the order of events of `60_exceptions.md` R131: halted, the timer phase, the fetch and
its fault, decode, then a report or the instruction. After it the host presents the next inputs (entry 1). -/
def step (s : State) : Host.Outcome State Fault Refusal :=
  if s.halted then .next (State.presentNext { s with report := none })
  else
    match fetch16 s.beginStep.mem s.beginStep.pc with
    | none =>
      .next (State.presentNext (takeFault (.memoryFault .fetch) s.beginStep.pc s.beginStep.pc s.beginStep))
    | some w =>
      match decodeWord w with
      | .error _ => .next (State.presentNext (reportWord w s.beginStep.advance))
      | .ok i => mapNext State.presentNext (exec i s.beginStep.advance)

/-- `s` with the instruction word `w` (its bits above `nbits` zero) stored where the next step fetches: at PC, or at 0x200 when
PC is no address a fetch can use; a recorded fault is cleared, since a halted core fetches nothing (entry 17). -/
def State.withFetchWord (s : State) (nbits w : Nat) : State :=
  let word := w % 2 ^ nbits % 2 ^ 16
  let at_ := if 0x0FFE < s.pc.toNat then Config.programStart else s.pc
  { s with
    pc := at_
    fault := if s.halted then FaultReg.clear else s.fault
    mem := s.mem.writeBytes at_.toNat [BitVec.ofNat 8 (word / 256), BitVec.ofNat 8 word] }

end Sys2Proof.Machine
end

