-- ==== Sys2Proof/Machine/HostOps.lean ====
section
/-! DEFINITION. What the host may do to the core between steps, and what it reads (`70_reset_and_hazards.md` R147). -/

namespace Sys2Proof.Machine

/-- The four quirk bits of `quirks_in`: bit 0 Q_SHIFT, 1 Q_JUMP, 2 Q_INDEX, 3 Q_SCROLL (`10_state.md` R30). -/
def Quirks.ofBits (q : BitVec 4) : Quirks := ⟨q.getLsbD 0, q.getLsbD 1, q.getLsbD 2, q.getLsbD 3⟩

/-- `reset(quirks_in)`, at any time, a faulted core included: every piece of state at its reset value, RPL kept
(`70_reset_and_hazards.md` R141 to R143). The inputs on the way and the parameter TICK_PERIOD are not the core's and stay. -/
def State.hostReset (quirksIn : BitVec 4) (s : State) : State :=
  { State.reset with
    quirks := Quirks.ofBits quirksIn
    rpl := s.rpl
    input := s.input
    upcoming := s.upcoming
    drawn := s.drawn
    tickPeriod := s.tickPeriod }

/-- The one error of `load_rom` (`70_reset_and_hazards.md` R146; not a core event, `60_exceptions.md` R134). -/
inductive LoadError where
  | romTooLarge
  deriving DecidableEq, Repr

/-- `load_rom(bytes)`: copy the image to 0x200 upwards, or fail with no state change (`70_reset_and_hazards.md` R146). -/
def State.loadRom (bytes : List Byte) (s : State) : Except LoadError State :=
  if romFits bytes then .ok { s with mem := s.mem.writeBytes Config.programStart.toNat bytes }
  else .error .romTooLarge

/-- `consume_display()`: DIRTY is cleared (`70_reset_and_hazards.md` R148). -/
def State.consumeDisplay (s : State) : State := { s with dirty := false }

/-- The host presents inputs for the coming step (`00_scope.md` R11; `70_reset_and_hazards.md` R149, R150). -/
def State.present (inp : StepInput) (s : State) : State := { s with input := inp }

/-- The output `sound_off` = (ST == 0) (`10_state.md` R24). -/
def State.soundOff (s : State) : Bool := decide (s.st = 0)

/-- The run has ended properly: EXIT = 1 and no fault (`70_reset_and_hazards.md` R151). -/
def State.endedProperly (s : State) : Bool := s.exit && !s.halted

end Sys2Proof.Machine
end

