-- ==== Sys2Proof/Safety.lean ====
section
/-! DEFINITION. The terms claims are stated in: the frame of a step (which parts of the state are kept), which instruction may
write which part, the state's invariant, and what a sprite covers. -/

namespace Sys2Proof.Machine

/-- The parts of the state a frame speaks of: the fields of `State`, by their names. -/
inductive Part where
  | v | pc | i | stack | sp | dt | st | tdeadline | disp | hires | dirty | exit | quirks | rpl | fault | mem
  | report | input | upcoming | drawn | tickPeriod
  deriving DecidableEq, Repr

/-- One part of the state is the same in `t` as in `s`, as far as anything can read it: memory byte by byte, the display cell
by cell, the registers one by one. -/
def Kept (s t : State) : Part → Prop
  | .v => ∀ r, t.reg r = s.reg r
  | .pc => t.pc = s.pc
  | .i => t.i = s.i
  | .stack => ∀ k : Fin 16, t.stack[k] = s.stack[k]
  | .sp => t.sp = s.sp
  | .dt => t.dt = s.dt
  | .st => t.st = s.st
  | .tdeadline => t.tdeadline = s.tdeadline
  | .disp => ∀ x y, t.disp.cell x y = s.disp.cell x y
  | .hires => t.hires = s.hires
  | .dirty => t.dirty = s.dirty
  | .exit => t.exit = s.exit
  | .quirks => t.quirks = s.quirks
  | .rpl => ∀ k : Fin 8, t.rpl[k] = s.rpl[k]
  | .fault => t.fault = s.fault
  | .mem => ∀ a, t.mem.read a = s.mem.read a
  | .report => t.report = s.report
  | .input => t.input = s.input
  | .upcoming => t.upcoming = s.upcoming
  | .drawn => t.drawn = s.drawn
  | .tickPeriod => t.tickPeriod = s.tickPeriod

/-- Every part of the state but the listed ones is the same in `t` as in `s`. -/
def KeptExcept (parts : List Part) (s t : State) : Prop := ∀ p, p ∉ parts → Kept s t p

/-- The inputs and the count of free draws, which change between two steps (entry 1). -/
abbrev inputParts : List Part := [.input, .upcoming, .drawn]

/-- What the timer phase may change (`40_step_cycle.md` R65). -/
abbrev timerParts : List Part := [.dt, .st, .tdeadline]


/-- The parts an instruction may write when it completes, from the column "Written by" of `10_state.md` R35 (PC beyond the
advance already made). -/
def writtenParts : Instr → List Part
  | .scd _ => [.disp, .dirty]
  | .cls => [.disp, .dirty]
  | .ret => [.pc, .sp]
  | .scr => [.disp, .dirty]
  | .scl => [.disp, .dirty]
  | .exit => [.exit]
  | .lores => [.hires]
  | .hires => [.hires]
  | .jp _ => [.pc]
  | .call _ => [.pc, .stack, .sp]
  | .sei _ _ => [.pc]
  | .snei _ _ => [.pc]
  | .ser _ _ => [.pc]
  | .ldi _ _ => [.v]
  | .addi _ _ => [.v]
  | .mov _ _ => [.v]
  | .or _ _ => [.v]
  | .and _ _ => [.v]
  | .xor _ _ => [.v]
  | .add _ _ => [.v]
  | .sub _ _ => [.v]
  | .shr _ _ => [.v]
  | .subn _ _ => [.v]
  | .shl _ _ => [.v]
  | .sner _ _ => [.pc]
  | .ldidx _ => [.i]
  | .jpoff _ => [.pc]
  | .rnd _ _ => [.v]
  | .drw _ _ _ => [.disp, .dirty, .v]
  | .skp _ => [.pc]
  | .sknp _ => [.pc]
  | .lddt _ => [.v]
  | .waitk _ => [.v, .pc]
  | .stdt _ => [.dt]
  | .stst _ => [.st]
  | .addidx _ => [.i, .v]
  | .font _ => [.i]
  | .bigfont _ => [.i]
  | .bcd _ => [.mem]
  | .stm _ => [.mem, .i]
  | .ldm _ => [.v, .i]
  | .strpl _ => [.rpl]
  | .ldrpl _ => [.v]

/-- The instruction writes its result to register `r` (`10_state.md` R13). -/
def writesReg (i : Instr) (r : Reg) : Bool :=
  match i with
  | .scd _ => false
  | .cls => false
  | .ret => false
  | .scr => false
  | .scl => false
  | .exit => false
  | .lores => false
  | .hires => false
  | .jp _ => false
  | .call _ => false
  | .sei _ _ => false
  | .snei _ _ => false
  | .ser _ _ => false
  | .ldi x _ => decide (r = x)
  | .addi x _ => decide (r = x)
  | .mov x _ => decide (r = x)
  | .or x _ => decide (r = x)
  | .and x _ => decide (r = x)
  | .xor x _ => decide (r = x)
  | .add x _ => decide (r = x)
  | .sub x _ => decide (r = x)
  | .shr x _ => decide (r = x)
  | .subn x _ => decide (r = x)
  | .shl x _ => decide (r = x)
  | .sner _ _ => false
  | .ldidx _ => false
  | .jpoff _ => false
  | .rnd x _ => decide (r = x)
  | .drw _ _ _ => false
  | .skp _ => false
  | .sknp _ => false
  | .lddt x => decide (r = x)
  | .waitk x => decide (r = x)
  | .stdt _ => false
  | .stst _ => false
  | .addidx _ => false
  | .font _ => false
  | .bigfont _ => false
  | .bcd _ => false
  | .stm _ => false
  | .ldm x => decide (r.val ≤ x.val)
  | .strpl _ => false
  | .ldrpl x => decide (r.val ≤ min x.val 7)

/-- The instructions that write VF as a side effect (`10_state.md` R14). -/
def writesFlag : Instr → Bool
  | .scd _ => false
  | .cls => false
  | .ret => false
  | .scr => false
  | .scl => false
  | .exit => false
  | .lores => false
  | .hires => false
  | .jp _ => false
  | .call _ => false
  | .sei _ _ => false
  | .snei _ _ => false
  | .ser _ _ => false
  | .ldi _ _ => false
  | .addi _ _ => false
  | .mov _ _ => false
  | .or _ _ => false
  | .and _ _ => false
  | .xor _ _ => false
  | .add _ _ => true
  | .sub _ _ => true
  | .shr _ _ => true
  | .subn _ _ => true
  | .shl _ _ => true
  | .sner _ _ => false
  | .ldidx _ => false
  | .jpoff _ => false
  | .rnd _ _ => false
  | .drw _ _ _ => true
  | .skp _ => false
  | .sknp _ => false
  | .lddt _ => false
  | .waitk _ => false
  | .stdt _ => false
  | .stst _ => false
  | .addidx _ => true
  | .font _ => false
  | .bigfont _ => false
  | .bcd _ => false
  | .stm _ => false
  | .ldm _ => false
  | .strpl _ => false
  | .ldrpl _ => false

/-- The display instructions that set DIRTY: 00E0, DXYN, 00CN, 00FB, 00FC (`44_display.md` R110). -/
def setsDirty : Instr → Bool
  | .scd _ => true
  | .cls => true
  | .ret => false
  | .scr => true
  | .scl => true
  | .exit => false
  | .lores => false
  | .hires => false
  | .jp _ => false
  | .call _ => false
  | .sei _ _ => false
  | .snei _ _ => false
  | .ser _ _ => false
  | .ldi _ _ => false
  | .addi _ _ => false
  | .mov _ _ => false
  | .or _ _ => false
  | .and _ _ => false
  | .xor _ _ => false
  | .add _ _ => false
  | .sub _ _ => false
  | .shr _ _ => false
  | .subn _ _ => false
  | .shl _ _ => false
  | .sner _ _ => false
  | .ldidx _ => false
  | .jpoff _ => false
  | .rnd _ _ => false
  | .drw _ _ _ => true
  | .skp _ => false
  | .sknp _ => false
  | .lddt _ => false
  | .waitk _ => false
  | .stdt _ => false
  | .stst _ => false
  | .addidx _ => false
  | .font _ => false
  | .bigfont _ => false
  | .bcd _ => false
  | .stm _ => false
  | .ldm _ => false
  | .strpl _ => false
  | .ldrpl _ => false

/-- The instructions that read `key_input`: FX0A, EX9E, EXA1 (`40_step_cycle.md` R68). -/
def readsKeys : Instr → Bool
  | .scd _ => false
  | .cls => false
  | .ret => false
  | .scr => false
  | .scl => false
  | .exit => false
  | .lores => false
  | .hires => false
  | .jp _ => false
  | .call _ => false
  | .sei _ _ => false
  | .snei _ _ => false
  | .ser _ _ => false
  | .ldi _ _ => false
  | .addi _ _ => false
  | .mov _ _ => false
  | .or _ _ => false
  | .and _ _ => false
  | .xor _ _ => false
  | .add _ _ => false
  | .sub _ _ => false
  | .shr _ _ => false
  | .subn _ _ => false
  | .shl _ _ => false
  | .sner _ _ => false
  | .ldidx _ => false
  | .jpoff _ => false
  | .rnd _ _ => false
  | .drw _ _ _ => false
  | .skp _ => true
  | .sknp _ => true
  | .lddt _ => false
  | .waitk _ => true
  | .stdt _ => false
  | .stst _ => false
  | .addidx _ => false
  | .font _ => false
  | .bigfont _ => false
  | .bcd _ => false
  | .stm _ => false
  | .ldm _ => false
  | .strpl _ => false
  | .ldrpl _ => false

/-- The instruction that reads `rand`: CXNN (`40_step_cycle.md` R68). -/
def readsRand : Instr → Bool
  | .scd _ => false
  | .cls => false
  | .ret => false
  | .scr => false
  | .scl => false
  | .exit => false
  | .lores => false
  | .hires => false
  | .jp _ => false
  | .call _ => false
  | .sei _ _ => false
  | .snei _ _ => false
  | .ser _ _ => false
  | .ldi _ _ => false
  | .addi _ _ => false
  | .mov _ _ => false
  | .or _ _ => false
  | .and _ _ => false
  | .xor _ _ => false
  | .add _ _ => false
  | .sub _ _ => false
  | .shr _ _ => false
  | .subn _ _ => false
  | .shl _ _ => false
  | .sner _ _ => false
  | .ldidx _ => false
  | .jpoff _ => false
  | .rnd _ _ => true
  | .drw _ _ _ => false
  | .skp _ => false
  | .sknp _ => false
  | .lddt _ => false
  | .waitk _ => false
  | .stdt _ => false
  | .stst _ => false
  | .addidx _ => false
  | .font _ => false
  | .bigfont _ => false
  | .bcd _ => false
  | .stm _ => false
  | .ldm _ => false
  | .strpl _ => false
  | .ldrpl _ => false

/-- FAULT_ADDR as `60_exceptions.md` R122 gives it for each cause. -/
def FaultReg.addrMatches (f : FaultReg) : Prop :=
  match f.cause with
  | .none => f.addr = 0
  | .memoryFault .fetch => f.addr = f.pc ∧ 0x0FFE < f.addr.toNat
  | .memoryFault .dataRead => f.addr = 0x1000
  | .memoryFault .dataWrite => f.addr = 0x1000
  | .memoryFault .fontWrite => 0x050 ≤ f.addr.toNat ∧ f.addr.toNat ≤ 0x13F
  | .stackFault _ => f.addr = 0

/-- The invariant of the core's states between steps. -/
structure State.Inv (s : State) : Prop where
  /-- Memory is in its canonical form, all of it below 0x1000 (`20_memory.md` R37). -/
  memory : s.mem.wf = true
  /-- The font bytes are immutable (`20_memory.md` R45). -/
  font : ∀ a, 0x050 ≤ a → a ≤ 0x13F → s.mem.read a = resetByte a
  /-- I <= 0x0FFF (`10_state.md` R18). -/
  index : s.i.toNat ≤ 0x0FFF
  /-- PC never overflows (`10_state.md` R16). -/
  pcBound : s.pc.toNat ≤ 0x10FE
  /-- Every stack entry is a value a call pushed, or 0 (`10_state.md` R16). -/
  returns : ∀ k : Fin 16, s.stack[k].toNat ≤ 0x1000
  /-- With no fault, FAULT holds its reset value; after one, PC and FAULT_PC are the faulting instruction's address
  (`60_exceptions.md` R128). -/
  faultPc : (s.fault.cause = .none → s.fault.pc = 0) ∧ (s.fault.cause ≠ .none → s.fault.pc = s.pc)
  /-- FAULT_ADDR agrees with the cause (`60_exceptions.md` R122). -/
  faultAddr : s.fault.addrMatches
  /-- A reported word is unrecognized, and a report and a fault never come together (`60_exceptions.md` R131). -/
  report : ∀ w, s.report = some w → s.fault.cause = .none ∧ decodeWord w = .error (.unrecognized w)

/-- A program runs safely so far: no fault was taken (`70_reset_and_hazards.md` R151, R155). -/
def State.Safe (s : State) : Prop := s.fault.cause = .none

/-- The timers of `t` are those of `s` after the timer phase of a step with the inputs of `s`: one tick when
`now >= TDEADLINE`, floored at 0, else no change (`40_step_cycle.md` R65). -/
def Ticked (s t : State) : Prop :=
  (s.tdeadline ≤ s.input.now →
    t.dt.toNat = s.dt.toNat - 1 ∧ t.st.toNat = s.st.toNat - 1 ∧ t.tdeadline = s.tdeadline + s.tickPeriod) ∧
  (s.input.now < s.tdeadline → t.dt = s.dt ∧ t.st = s.st ∧ t.tdeadline = s.tdeadline)

/-- The range of `n` bytes from `base` lies in memory (`20_memory.md` R44). -/
def InMemory (base n : Nat) : Prop := base + n ≤ 0x1000

/-- The range of `n` bytes from `base` misses the font region 0x050..0x13F (`20_memory.md` R45). -/
def MissesFont (base n : Nat) : Prop := base + n ≤ 0x050 ∨ 0x13F < base

/-- The sprite of DXYN covers the physical cell (px, py) with a set bit: the logical pixel of the cell lies in the 8 × N box
whose corner is (V[X] mod W, V[Y] mod H), and its bit, most significant leftmost, is 1 (`44_display.md` R102, R103). -/
def SpriteCovers (s : State) (x y : Reg) (n : Count) (px py : Nat) : Prop :=
  let lx := if s.hires then px else px / 2
  let ly := if s.hires then py else py / 2
  let x0 := (s.reg x).toNat % (if s.hires then 128 else 64)
  let y0 := (s.reg y).toNat % (if s.hires then 64 else 32)
  x0 ≤ lx ∧ lx < x0 + 8 ∧ y0 ≤ ly ∧ ly < y0 + n.val ∧
    (s.mem.read (s.i.toNat + (ly - y0))).getLsbD (7 - (lx - x0)) = true

end Sys2Proof.Machine
end

