-- ==== Sys2Proof/Certificates/Slice0/Obligations.lean ====
section
/-! DEFINITION. The statements about the model, for the provers: one `def Obligations.<Name> : Prop` each. "t" is the state
after, "s" the state before; an instruction is given the state with PC already advanced (`40_step_cycle.md` R67). -/

open Sys2Proof Sys2Proof.Machine

/-! ### Reset and the host -/

/-- The state `70_reset_and_hazards.md` R142 lists, for every `quirks_in` and every state before the reset. Which bit of
`quirks_in` is which toggle is the spec's decision D9 (R30; log entry 25). TDEADLINE_INIT (entry 4), SMALL_FONT_TABLE (D16,
entry 8) and LARGE_FONT_TABLE (D17, entry 7) stand for what R142 leaves to its parameters; `report` is the model's field for
that output (entry 13). -/
def Obligations.HostResetGivesResetState : Prop :=
  ∀ (q : BitVec 4) (s : State),
    let t := s.hostReset q
    (∀ r, t.reg r = 0) ∧ t.pc = 0x0200 ∧ t.i = 0 ∧ (∀ k : Fin 16, t.stack[k] = 0) ∧ t.sp = 0 ∧ t.dt = 0 ∧ t.st = 0 ∧
    t.tdeadline = Config.tdeadlineInit ∧ (∀ x y, t.disp.cell x y = false) ∧ t.hires = false ∧ t.dirty = false ∧
    t.exit = false ∧
    (t.quirks.shift = q.getLsbD 0 ∧ t.quirks.jump = q.getLsbD 1 ∧ t.quirks.index = q.getLsbD 2 ∧
      t.quirks.scroll = q.getLsbD 3) ∧
    t.fault = ⟨.none, 0, 0⟩ ∧ t.soundOff = true ∧ t.report = none ∧
    (∀ a, a < 4096 → t.mem.read a =
      if 0x050 ≤ a ∧ a ≤ 0x09F then smallFontTable.getD (a - 0x050) 0
      else if 0x0A0 ≤ a ∧ a ≤ 0x103 then Config.largeFontByte (a - 0x0A0)
      else 0)

/-- Reset is the way out of a fault and of EXIT, and RPL survives it (R141, R143). The halt is the spec's decision D13, RPL's
survival its decision D29; that a reset leaves the presented inputs and TICK_PERIOD alone, on which the last clause rests, is
the model's choice (log entries 1 and 3). -/
def Obligations.HostResetLeavesFaultAndKeepsRpl : Prop :=
  ∀ (q : BitVec 4) (s : State),
    (s.hostReset q).halted = false ∧ (s.hostReset q).exit = false ∧
    (∀ k : Fin 8, (s.hostReset q).rpl[k] = s.rpl[k]) ∧
    State.hostReset q (s.hostReset q) = s.hostReset q

/-- The copy of `70_reset_and_hazards.md` R146. A failing load gives no state, so none has changed. That it holds from every
state, not only between reset and the first step, is the model's choice (log entry 18), and so is the canonical form of memory,
in the premise and in `t.mem.wf` (log entry 23). -/
def Obligations.LoadRomCopiesImageOrFails : Prop :=
  ∀ (bytes : List Byte) (s : State), s.mem.wf = true →
    (bytes.length ≤ 3584 → ∃ t, s.loadRom bytes = .ok t ∧
      (∀ k (h : k < bytes.length), t.mem.read (0x200 + k) = bytes[k]) ∧
      (∀ a, a < 0x200 ∨ 0x200 + bytes.length ≤ a → t.mem.read a = s.mem.read a) ∧
      t.mem.wf = true ∧ KeptExcept [.mem] s t) ∧
    (3584 < bytes.length → s.loadRom bytes = .error .romTooLarge)

/-- `70_reset_and_hazards.md` R148: the host clears DIRTY and nothing else. That it may do so in every state is the model's
choice (log entry 18). -/
def Obligations.ConsumeDisplayClearsDirty : Prop :=
  ∀ s : State, s.consumeDisplay.dirty = false ∧ KeptExcept [.dirty] s s.consumeDisplay

/-! ### The step -/

/-- A step of a core that is not halted runs the instruction its PC points at, on the state with the report cleared, the timer
phase done and PC advanced (R64, R65, R67, R68). The tick test is the spec's decision D4, the new deadline its D5 (conflict C3),
the timer phase before the fetch its D38, the fetch's bound its D12; that the host presents the next inputs after the step is
the model's choice (log entry 1). -/
def Obligations.StepRunsDecodedInstruction : Prop :=
  ∀ (s : State) (i : Instr), s.fault.cause = .none → s.pc.toNat ≤ 0x0FFE → i.wellFormed = true →
    decode [s.mem.read s.pc.toNat, s.mem.read (s.pc.toNat + 1)] = .ok (i, []) →
    step s = mapNext State.presentNext (exec i { s with
      report := none
      dt := if s.tdeadline ≤ s.input.now then BitVec.ofNat 8 (s.dt.toNat - 1) else s.dt
      st := if s.tdeadline ≤ s.input.now then BitVec.ofNat 8 (s.st.toNat - 1) else s.st
      tdeadline := if s.tdeadline ≤ s.input.now then s.tdeadline + s.tickPeriod else s.tdeadline
      pc := s.pc + 2 })

/-- Between steps the host presents the next listed inputs, or free ones (the model's choice, entry 1); nothing else moves. -/
def Obligations.InputsArePresentedBetweenSteps : Prop :=
  ∀ s : State,
    KeptExcept inputParts s s.presentNext ∧
    (∀ inp later, s.upcoming = inp :: later →
      s.presentNext.input = inp ∧ s.presentNext.upcoming = later ∧ s.presentNext.drawn = s.drawn) ∧
    (s.upcoming = [] → s.presentNext.input =
        ⟨Config.freeKeyInput s.drawn, Config.freeNow s.drawn, Config.freeRand s.drawn⟩ ∧
      s.presentNext.upcoming = [] ∧ s.presentNext.drawn = s.drawn + 1)

/-- `40_step_cycle.md` R69: an unrecognized word is reported and skipped; the step's timer phase (R65) has run. The tick test is
the spec's decision D4, the new deadline its D5, the timer phase before the fetch its D38, the fetch's bound its D12, the report
as an output its D33; that State holds that output (log entry 13) and that the inputs move (log entry 1) are the model's choice.
-/
def Obligations.UnrecognizedWordIsReportedAndSkipped : Prop :=
  ∀ (s : State) (w : Word), s.fault.cause = .none → s.pc.toNat ≤ 0x0FFE →
    w = s.mem.read s.pc.toNat ++ s.mem.read (s.pc.toNat + 1) →
    (∃ e, decodeWord w = .error e) →
    ∃ t, step s = .next t ∧ t.report = some w ∧ t.pc = s.pc + 2 ∧ Ticked s t ∧
      KeptExcept ([.pc, .report] ++ timerParts ++ inputParts) s t

/-- A halted core does nothing (R71, R129; the halt is the spec's decision D13). That the report is cleared and the presented
inputs move on is the model's reading (log entries 12 and 1). -/
def Obligations.HaltedStepChangesNothing : Prop :=
  ∀ s : State, s.fault.cause ≠ .none →
    ∃ t, step s = .next t ∧ t.report = none ∧ t.mem = s.mem ∧ KeptExcept (.report :: inputParts) s t

/-- A fetch above 0x0FFE takes MemoryFault(Fetch); PC is not advanced and the tick is kept (R42, R65, R67, R128). The bound is
the spec's decision D12, the fault's record its D13, the tick test its D4, the new deadline its D5, the timer phase before the
fetch its D38; that the presented inputs move is the model's choice (log entry 1). -/
def Obligations.FetchAboveMemoryFaults : Prop :=
  ∀ s : State, s.fault.cause = .none → 0x0FFE < s.pc.toNat →
    ∃ t, step s = .next t ∧ t.fault = ⟨.memoryFault .fetch, s.pc, s.pc⟩ ∧ t.report = none ∧ Ticked s t ∧
      KeptExcept ([.fault, .report] ++ timerParts ++ inputParts) s t

/-- Every state has a next state: no step of this model is refused, and none leaves the machine without a state. R64 gives a
step to every state; that the spec's faults are next states is the model's reading (log entry 11, DEDUCED) of R128 and R129,
which are the spec's decision D13, as the halted step of R71 is. -/
def Obligations.EveryStepHasANextState : Prop := ∀ s : State, ∃ t, step s = .next t

/-- A timer falls by at most one in a step, and a timer at 0 stays 0, unless the step sets it (`40_step_cycle.md` R65). -/
def Obligations.TimersFallByAtMostOneAStep : Prop :=
  ∀ s t : State, step s = .next t →
    ((∀ x, fetch16 s.mem s.pc ≠ some (encode (.stdt x))) → t.dt = s.dt ∨ t.dt.toNat + 1 = s.dt.toNat) ∧
    ((∀ x, fetch16 s.mem s.pc ≠ some (encode (.stst x))) → t.st = s.st ∨ t.st.toNat + 1 = s.st.toNat)

/-- Faults are precise: whichever step takes one, only FAULT is written and the tick kept; PC is the faulting instruction's
address (R126, R128). The checks before any write are the spec's decision D12, the mechanism its D13, the tick test its D4, the
new deadline its D5 and the timer phase before the fetch its D38 (R65); that the presented inputs move is the model's choice
(log entry 1). -/
def Obligations.FaultsArePrecise : Prop :=
  ∀ s t : State, s.fault.cause = .none → step s = .next t → t.fault.cause ≠ .none →
    t.fault.pc = s.pc ∧ t.report = none ∧ t.mem = s.mem ∧ Ticked s t ∧
      KeptExcept ([.fault, .report] ++ timerParts ++ inputParts) s t

/-- A fault is sticky: no step changes it (R129; the spec's decision D13). -/
def Obligations.FaultIsSticky : Prop :=
  ∀ s t : State, s.fault.cause ≠ .none → step s = .next t → t.fault = s.fault

/-! ### Invariants -/

/-- Every step keeps the invariant, from every state that has it. The spec's decisions behind its clauses: I <= 0x0FFF rests on
D20 and, for FX29 and FX30, on D17 and D18; the PC bound on D12 and D32; the stack's bound on D12 (the fetch's bound); FAULT_PC,
PC and the halt on D13; FAULT_ADDR on D12, D13 and D14; the font region on D14 and D17; the report of an unrecognized word on
D33. The canonical form of memory is the model's choice (log entry 23), and so is that State holds the report (log entry 13). -/
def Obligations.StepKeepsStateInvariant : Prop :=
  ∀ s t : State, s.Inv → step s = .next t → t.Inv

/-- The invariant holds after the reset with any quirks, whatever state the core was in. The canonical form of memory is the
model's choice (log entry 23); FAULT and its reset value are the spec's decision D13. -/
def Obligations.ResetHasStateInvariant : Prop :=
  State.reset.Inv ∧ ∀ (q : BitVec 4) (s : State), (s.hostReset q).Inv

/-- Host operations keep the invariant: `load_rom`, `consume_display`, presenting inputs. That each may be applied in every
state, not only where the spec lets the host, is the model's choice (log entry 18), and so is the canonical form of memory, a
clause of the invariant (log entry 23); the spec's decisions behind the invariant's other clauses are named at
StepKeepsStateInvariant. -/
def Obligations.HostOperationsKeepStateInvariant : Prop :=
  ∀ s t : State, s.Inv →
    (∀ bytes, s.loadRom bytes = .ok t → t.Inv) ∧ s.consumeDisplay.Inv ∧ ∀ inp, (s.present inp).Inv

/-- No step changes a byte of the font region (the source's "font bytes are immutable after init"; the fault that keeps it is
the spec's decision D14, the region's end its D17). -/
def Obligations.NoStepWritesTheFontRegion : Prop :=
  ∀ s t : State, step s = .next t → ∀ a, 0x050 ≤ a → a ≤ 0x13F → t.mem.read a = s.mem.read a

/-- A statement about the model's own representation of memory, a canonical list (log entry 23, DESIGN CHOICE): two such
memories that read alike everywhere are the same list, so the representation adds no state to the 4096 bytes of the spec. No
rule of the spec speaks of a list. -/
def Obligations.CanonicalMemoriesAreDeterminedByTheirBytes : Prop :=
  ∀ m n : Memory, m.wf = true → n.wf = true → (∀ a, m.read a = n.read a) → m = n

/-! ### Rules over all instructions -/

/-- `10_state.md` R35, column "Written by": an instruction changes only the parts the table gives it, PC beyond the advance for
the control transfers, and FAULT, PC and the report when it takes a fault (the fault's record is the spec's decision D13). That
the model's own fields are written by no instruction is the model's choice (log entries 1, 3 and 13). -/
def Obligations.InstructionsWriteOnlyTheirParts : Prop :=
  ∀ (i : Instr) (s t : State), exec i s = .next t →
    KeptExcept (writtenParts i ++ [.pc, .fault, .report]) s t ∧
    (t.fault = s.fault → s.fault.cause = .none → KeptExcept (writtenParts i) s t)

/-- No instruction changes a register but its result registers, and VF by the instructions of `10_state.md` R14. -/
def Obligations.RegistersChangeOnlyAsNamed : Prop :=
  ∀ (i : Instr) (s t : State) (r : Reg), exec i s = .next t →
    writesReg i r = false → (writesFlag i = true → r ≠ 15) → t.reg r = s.reg r

/-- The flag-writing instructions leave 0 or 1 in VF, whichever register they name (R14; for FX1E without overflow the spec's
decision D19, for X = F its decision D21). -/
def Obligations.FlagIsZeroOrOne : Prop :=
  ∀ (i : Instr) (s t : State), writesFlag i = true → s.fault.cause = .none → exec i s = .next t → t.fault.cause = .none →
    t.reg 15 = 0 ∨ t.reg 15 = 1

/-- DIRTY is set by exactly five instructions whenever they complete, and left alone by every other (R110; the spec's decision
D27). -/
def Obligations.DirtyIsSetByDisplayWritersOnly : Prop :=
  ∀ (i : Instr) (s t : State), s.fault.cause = .none → exec i s = .next t → t.fault.cause = .none →
    t.dirty = (s.dirty || setsDirty i)

/-- QUIRKS is immutable, EXIT and DIRTY are never cleared by a step (`10_state.md` R28 to R30; EXIT's stickiness is the spec's
decision D30). That no step changes TICK_PERIOD says that the spec's parameter is a field of State no step writes, the model's
choice (log entry 3). -/
def Obligations.QuirksImmutableExitAndDirtySticky : Prop :=
  ∀ s t : State, step s = .next t →
    t.quirks = s.quirks ∧ t.tickPeriod = s.tickPeriod ∧ (s.exit = true → t.exit = true) ∧ (s.dirty = true → t.dirty = true)

/-- Only FX0A, EX9E and EXA1 read `key_input`, only CXNN reads `rand`, and no instruction reads `now` (R68, R136): presenting
other inputs, equal to the old ones where the instruction reads them, changes what it does to nothing else. That `rand` is an
input is the spec's decision D8; that the inputs stand in State is the model's choice (log entry 1). -/
def Obligations.InputsAreReadOnlyAsNamed : Prop :=
  ∀ (i : Instr) (s : State) (inp : StepInput),
    (readsKeys i = true → inp.keyInput = s.input.keyInput) → (readsRand i = true → inp.rand = s.input.rand) →
    exec i (s.present inp) = mapNext (State.present inp) (exec i s)

/-! ### Encoding -/

/-- Decoding an encoded instruction gives it back, with every operand at every value, and leaves the bytes after it. The operand
types carry the fields' widths (the model's choice, log entry 24). -/
def Obligations.DecodeOfEncodeIsTheInstruction : Prop :=
  ∀ (i : Instr) (rest : List Byte), i.wellFormed = true → decode (encodeBytes i ++ rest) = .ok (i, rest)

/-- A word that decodes is the encoding of what it decodes to: no two words share a meaning. True of exact-match decoding only,
which is the spec's decision D23 (R57; log entry 25). -/
def Obligations.EncodeOfDecodeIsTheWord : Prop :=
  ∀ (w : Word) (i : Instr), decodeWord w = .ok i → encode i = w ∧ i.wellFormed = true

/-- The unrecognized words, nibble by nibble, as the table of `30_encoding.md` R58 lists them (exact match is the spec's decision
D23). `n3` is the leading nibble. -/
def Obligations.UnrecognizedWordsAreThoseListed : Prop :=
  ∀ w : Word,
    let n3 := w.toNat / 4096
    let k := w.toNat % 16
    let kk := w.toNat % 256
    (decodeWord w = .error (.unrecognized w) ↔
      (n3 = 0 ∧ ¬ (0x00C0 ≤ w.toNat ∧ w.toNat ≤ 0x00CF) ∧
        w.toNat ∉ [0x00E0, 0x00EE, 0x00FB, 0x00FC, 0x00FD, 0x00FE, 0x00FF]) ∨
      (n3 = 5 ∧ k ≠ 0) ∨
      (n3 = 8 ∧ k ∈ [8, 9, 0xA, 0xB, 0xC, 0xD, 0xF]) ∨
      (n3 = 9 ∧ k ≠ 0) ∨
      (n3 = 0xE ∧ kk ∉ [0x9E, 0xA1]) ∨
      (n3 = 0xF ∧ kk ∉ [0x07, 0x0A, 0x15, 0x18, 0x1E, 0x29, 0x30, 0x33, 0x55, 0x65, 0x75, 0x85])) ∧
    ((∃ e, decodeWord w = .error e) → decodeWord w = .error (.unrecognized w))

/-- One word of each family, written out from the spec's patterns, decodes to the instruction it stands for (R54, R56). That
0x5121 is rejected (R57, R58) rests on exact match, the spec's decision D23 (log entry 25). -/
def Obligations.SampleWordsDecodeRight : Prop :=
  decodeWord 0x83A4 = .ok (.add 3 10) ∧ decodeWord 0x1234 = .ok (.jp 0x234) ∧ decodeWord 0xB3A0 = .ok (.jpoff 0x3A0) ∧
  decodeWord 0xF255 = .ok (.stm 2) ∧ decodeWord 0xD125 = .ok (.drw 1 2 5) ∧ decodeWord 0x00C3 = .ok (.scd 3) ∧
  decodeWord 0xE19E = .ok (.skp 1) ∧ decodeWord 0x5121 = .error (.unrecognized 0x5121)

/-! ### Control transfer -/

/-- 1NNN (`41_control_flow.md` R73): its word, and what it does. -/
def Obligations.JumpLoadsPc : Prop :=
  ∀ (nnn : Addr12) (s : State), decodeWord (BitVec.ofNat 16 (0x1000 + nnn.toNat)) = .ok (.jp nnn) ∧
    ∃ t, exec (.jp nnn) s = .next t ∧ t.pc.toNat = nnn.toNat ∧ KeptExcept [.pc] s t

/-- BNNN: the base register is V[0] or V[X] as Q_JUMP says, X the top nibble of NNN; the sum is not reduced modulo 0x1000 (R75;
the 16-bit sum is the spec's decision D32). -/
def Obligations.JumpWithOffsetAddsTheQuirkRegister : Prop :=
  ∀ (nnn : Addr12) (s : State) (x : Reg), x.val = nnn.toNat / 256 →
    ∃ t, exec (.jpoff nnn) s = .next t ∧ KeptExcept [.pc] s t ∧
      t.pc.toNat = (if s.quirks.jump then s.reg 0 else s.reg x).toNat + nnn.toNat

/-- 3XNN, 4XNN, 5XY0, 9XY0 (R76 to R79): their words, and PC moves by 2 exactly when the condition holds. That 5XYk and 9XYk
with k from 1 to 15 do not decode rests on exact match, the spec's decision D23 (R57; log entry 25). -/
def Obligations.RegisterSkipsFollowTheirCondition : Prop :=
  ∀ (x y : Reg) (nn : Byte) (s : State),
    (decodeWord (BitVec.ofNat 16 (0x3000 + x.val * 256 + nn.toNat)) = .ok (.sei x nn) ∧
      ∃ t, exec (.sei x nn) s = .next t ∧ t.pc = (if s.reg x = nn then s.pc + 2 else s.pc) ∧ KeptExcept [.pc] s t) ∧
    (decodeWord (BitVec.ofNat 16 (0x4000 + x.val * 256 + nn.toNat)) = .ok (.snei x nn) ∧
      ∃ t, exec (.snei x nn) s = .next t ∧ t.pc = (if s.reg x = nn then s.pc else s.pc + 2) ∧ KeptExcept [.pc] s t) ∧
    (decodeWord (BitVec.ofNat 16 (0x5000 + x.val * 256 + y.val * 16)) = .ok (.ser x y) ∧
      (∀ k, 0 < k → k < 16 → ∃ e, decodeWord (BitVec.ofNat 16 (0x5000 + x.val * 256 + y.val * 16 + k)) = .error e) ∧
      ∃ t, exec (.ser x y) s = .next t ∧ t.pc = (if s.reg x = s.reg y then s.pc + 2 else s.pc) ∧ KeptExcept [.pc] s t) ∧
    (decodeWord (BitVec.ofNat 16 (0x9000 + x.val * 256 + y.val * 16)) = .ok (.sner x y) ∧
      (∀ k, 0 < k → k < 16 → ∃ e, decodeWord (BitVec.ofNat 16 (0x9000 + x.val * 256 + y.val * 16 + k)) = .error e) ∧
      ∃ t, exec (.sner x y) s = .next t ∧ t.pc = (if s.reg x = s.reg y then s.pc else s.pc + 2) ∧ KeptExcept [.pc] s t)

/-- 2NNN with room on the stack: the advanced PC is pushed, PC is NNN (R74, R21). That SP counts the entries in use is the
spec's decision D11. -/
def Obligations.CallPushesReturnAddress : Prop :=
  ∀ (nnn : Addr12) (s : State), s.sp.val < 16 →
    ∃ t, exec (.call nnn) s = .next t ∧ t.pc.toNat = nnn.toNat ∧ t.sp.val = s.sp.val + 1 ∧
      (∀ k : Fin 16, t.stack[k] = if k.val = s.sp.val then s.pc else s.stack[k]) ∧ KeptExcept [.pc, .stack, .sp] s t

/-- 00EE with an entry on the stack: PC is the popped value, used as it is, and the entry stays (R72, R22). That SP counts the
entries and a pop leaves them is the spec's decision D11. -/
def Obligations.ReturnPopsPc : Prop :=
  ∀ (s : State) (k : Fin 16), s.sp.val = k.val + 1 →
    ∃ t, exec .ret s = .next t ∧ t.pc = s.stack[k] ∧ t.sp.val = k.val ∧ KeptExcept [.pc, .sp] s t

/-- 2NNN at SP = 16 and 00EE at SP = 0 take StackFault: nothing is pushed or popped, PC is the instruction's address
(R21, R22, R127, R128; the spec's decisions D10 and D13). -/
def Obligations.StackFaultsChangeOnlyFault : Prop :=
  ∀ (nnn : Addr12) (s : State),
    (s.sp = 16 → ∃ t, exec (.call nnn) s = .next t ∧ t.pc = s.pc - 2 ∧
      t.fault = ⟨.stackFault .overflow, s.pc - 2, 0⟩ ∧ t.report = none ∧ KeptExcept [.pc, .fault, .report] s t) ∧
    (s.sp = 0 → ∃ t, exec .ret s = .next t ∧ t.pc = s.pc - 2 ∧
      t.fault = ⟨.stackFault .underflow, s.pc - 2, 0⟩ ∧ t.report = none ∧ KeptExcept [.pc, .fault, .report] s t)

/-- A call and then a return, with any PC between, come back to the instruction after the call, at the depth before it (the
source's scenario 2, `95_test_vectors.md` S8). That SP counts the entries in use is the spec's decision D11. -/
def Obligations.CallThenReturnComesBack : Prop :=
  ∀ (nnn : Addr12) (s : State) (pc : Word), s.sp.val < 16 →
    ∃ t u, exec (.call nnn) s = .next t ∧ exec .ret (t.setPc pc) = .next u ∧ u.pc = s.pc ∧ u.sp = s.sp ∧
      KeptExcept [.stack] s u

/-! ### Load and arithmetic -/

/-- 6XNN, 7XNN, 8XY0 (R81 to R83): their words; the result goes to V[X] and no flag is written. -/
def Obligations.LoadsAndImmediateAddWriteOneRegister : Prop :=
  ∀ (x y : Reg) (nn : Byte) (s : State),
    (decodeWord (BitVec.ofNat 16 (0x6000 + x.val * 256 + nn.toNat)) = .ok (.ldi x nn) ∧
      ∃ t, exec (.ldi x nn) s = .next t ∧ t.reg x = nn ∧ (∀ r, r ≠ x → t.reg r = s.reg r) ∧ KeptExcept [.v] s t) ∧
    (decodeWord (BitVec.ofNat 16 (0x7000 + x.val * 256 + nn.toNat)) = .ok (.addi x nn) ∧
      ∃ t, exec (.addi x nn) s = .next t ∧ (t.reg x).toNat = ((s.reg x).toNat + nn.toNat) % 256 ∧
      (∀ r, r ≠ x → t.reg r = s.reg r) ∧ KeptExcept [.v] s t) ∧
    (decodeWord (BitVec.ofNat 16 (0x8000 + x.val * 256 + y.val * 16)) = .ok (.mov x y) ∧
      ∃ t, exec (.mov x y) s = .next t ∧ t.reg x = s.reg y ∧ (∀ r, r ≠ x → t.reg r = s.reg r) ∧ KeptExcept [.v] s t)

/-- 8XY1, 8XY2, 8XY3 (R84 to R86): their words, and the result bit by bit; VF is left unchanged unless it is V[X]. -/
def Obligations.BitwiseInstructionsWriteOneRegister : Prop :=
  ∀ (x y : Reg) (s : State),
    (decodeWord (BitVec.ofNat 16 (0x8001 + x.val * 256 + y.val * 16)) = .ok (.or x y) ∧ ∃ t, exec (.or x y) s = .next t ∧
      (∀ b, b < 8 → (t.reg x).getLsbD b = ((s.reg x).getLsbD b || (s.reg y).getLsbD b)) ∧
      (∀ r, r ≠ x → t.reg r = s.reg r) ∧ KeptExcept [.v] s t) ∧
    (decodeWord (BitVec.ofNat 16 (0x8002 + x.val * 256 + y.val * 16)) = .ok (.and x y) ∧ ∃ t, exec (.and x y) s = .next t ∧
      (∀ b, b < 8 → (t.reg x).getLsbD b = ((s.reg x).getLsbD b && (s.reg y).getLsbD b)) ∧
      (∀ r, r ≠ x → t.reg r = s.reg r) ∧ KeptExcept [.v] s t) ∧
    (decodeWord (BitVec.ofNat 16 (0x8003 + x.val * 256 + y.val * 16)) = .ok (.xor x y) ∧ ∃ t, exec (.xor x y) s = .next t ∧
      (∀ b, b < 8 → (t.reg x).getLsbD b = ((s.reg x).getLsbD b != (s.reg y).getLsbD b)) ∧
      (∀ r, r ≠ x → t.reg r = s.reg r) ∧ KeptExcept [.v] s t)

/-- 8XY4 (R87): the sum modulo 256 in V[X], VF = 1 exactly on a carry. For X = F only the flag remains (the spec's decision
D21). -/
def Obligations.AddWritesSumAndCarry : Prop :=
  ∀ (x y : Reg) (s : State),
    ∃ t, exec (.add x y) s = .next t ∧
      t.reg 15 = (if (s.reg x).toNat + (s.reg y).toNat > 255 then 1 else 0) ∧
      (x ≠ 15 → (t.reg x).toNat = ((s.reg x).toNat + (s.reg y).toNat) % 256) ∧
      (∀ r, r ≠ x → r ≠ 15 → t.reg r = s.reg r) ∧ KeptExcept [.v] s t

/-- 8XY5 and 8XY7 (R88, R90): the difference modulo 256 in V[X], VF = 1 exactly when there is no borrow. For X = F only the flag
remains (the spec's decision D21). -/
def Obligations.SubtractsWriteDifferenceAndNoBorrow : Prop :=
  ∀ (x y : Reg) (s : State),
    (∃ t, exec (.sub x y) s = .next t ∧
      t.reg 15 = (if (s.reg x).toNat ≥ (s.reg y).toNat then 1 else 0) ∧
      (x ≠ 15 → (t.reg x).toNat = ((s.reg x).toNat + 256 - (s.reg y).toNat) % 256) ∧
      (∀ r, r ≠ x → r ≠ 15 → t.reg r = s.reg r) ∧ KeptExcept [.v] s t) ∧
    (∃ t, exec (.subn x y) s = .next t ∧
      t.reg 15 = (if (s.reg y).toNat ≥ (s.reg x).toNat then 1 else 0) ∧
      (x ≠ 15 → (t.reg x).toNat = ((s.reg y).toNat + 256 - (s.reg x).toNat) % 256) ∧
      (∀ r, r ≠ x → r ≠ 15 → t.reg r = s.reg r) ∧ KeptExcept [.v] s t)

/-- 8XY6 and 8XYE (R89, R91): `a` is V[Y] under Q_SHIFT and V[X] otherwise; VF is the bit shifted out. For X = F only the flag
remains (the spec's decision D21). -/
def Obligations.ShiftsWriteResultAndBitShiftedOut : Prop :=
  ∀ (x y : Reg) (s : State) (a : Byte), a = (if s.quirks.shift then s.reg y else s.reg x) →
    (∃ t, exec (.shr x y) s = .next t ∧
      (t.reg 15).toNat = a.toNat % 2 ∧ (x ≠ 15 → (t.reg x).toNat = a.toNat / 2) ∧
      (∀ r, r ≠ x → r ≠ 15 → t.reg r = s.reg r) ∧ KeptExcept [.v] s t) ∧
    (∃ t, exec (.shl x y) s = .next t ∧
      (t.reg 15).toNat = a.toNat / 128 ∧ (x ≠ 15 → (t.reg x).toNat = a.toNat * 2 % 256) ∧
      (∀ r, r ≠ x → r ≠ 15 → t.reg r = s.reg r) ∧ KeptExcept [.v] s t)

/-- CXNN (R92; that the byte is the step's input is the spec's decision D8). -/
def Obligations.RandomIsInputUnderMask : Prop :=
  ∀ (x : Reg) (nn : Byte) (s : State),
    ∃ t, exec (.rnd x nn) s = .next t ∧
      (∀ b, b < 8 → (t.reg x).getLsbD b = (s.input.rand.getLsbD b && nn.getLsbD b)) ∧
      (∀ r, r ≠ x → t.reg r = s.reg r) ∧ KeptExcept [.v] s t

/-! ### Index register and memory -/

/-- ANNN, FX29, FX30 (R93, R95, R96). The large font's place and FX29's large path are the spec's decisions D17 and D18. -/
def Obligations.IndexLoadsGiveTheirAddress : Prop :=
  ∀ (nnn : Addr12) (x : Reg) (s : State),
    (∃ t, exec (.ldidx nnn) s = .next t ∧ t.i.toNat = nnn.toNat ∧ KeptExcept [.i] s t) ∧
    (∃ t, exec (.font x) s = .next t ∧
      t.i.toNat = (if (s.reg x).toNat < 0x10 then 0x050 + (s.reg x).toNat * 5
        else 0x0A0 + ((s.reg x).toNat - 0x10) * 10) ∧ KeptExcept [.i] s t) ∧
    (∃ t, exec (.bigfont x) s = .next t ∧ t.i.toNat = 0x0A0 + (s.reg x).toNat * 10 ∧ KeptExcept [.i] s t)

/-- FX1E (R94): the sum modulo 0x1000 in I, VF = 1 on overflow past 0xFFF; without it VF is 0 under the spec's default
FX1E_VF_MODE = write_both (its decision D19). V[X] is read before VF is written. -/
def Obligations.AddToIndexWrapsAndFlagsOverflow : Prop :=
  ∀ (x : Reg) (s : State),
    ∃ t, exec (.addidx x) s = .next t ∧
      t.i.toNat = (s.i.toNat + (s.reg x).toNat) % 0x1000 ∧
      t.reg 15 = (if s.i.toNat + (s.reg x).toNat > 0x0FFF then 1 else 0) ∧
      (∀ r, r ≠ 15 → t.reg r = s.reg r) ∧ KeptExcept [.i, .v] s t

/-- FX33 (R97) on a range in memory that misses the font region: three digits, hundreds lowest (the spec's decision D22); I is
unchanged. The premises on the range are the spec's decisions D12, D14 and D17; the premise that memory is canonical is the
model's (log entry 23). -/
def Obligations.BcdStoresThreeDigits : Prop :=
  ∀ (x : Reg) (s : State), s.mem.wf = true → InMemory s.base 3 → MissesFont s.base 3 →
    ∃ t, exec (.bcd x) s = .next t ∧
      (t.mem.read s.base).toNat = (s.reg x).toNat / 100 ∧
      (t.mem.read (s.base + 1)).toNat = (s.reg x).toNat / 10 % 10 ∧
      (t.mem.read (s.base + 2)).toNat = (s.reg x).toNat % 10 ∧
      (∀ a, a < s.base ∨ s.base + 3 ≤ a → t.mem.read a = s.mem.read a) ∧ KeptExcept [.mem] s t

/-- FX55 (R98) on a range in memory that misses the font region: V[0]..V[X] upwards from I, then Q_INDEX's increment (its wrap
is the spec's decision D20). The premises on the range are the spec's decisions D12, D14 and D17; the premise that memory is
canonical is the model's (log entry 23). -/
def Obligations.StoreMultipleWritesRegisters : Prop :=
  ∀ (x : Reg) (s : State), s.mem.wf = true → InMemory s.base (x.val + 1) → MissesFont s.base (x.val + 1) →
    ∃ t, exec (.stm x) s = .next t ∧
      (∀ r : Reg, r.val ≤ x.val → t.mem.read (s.base + r.val) = s.reg r) ∧
      (∀ a, a < s.base ∨ s.base + x.val + 1 ≤ a → t.mem.read a = s.mem.read a) ∧
      t.i.toNat = (if s.quirks.index then (s.i.toNat + x.val + 1) % 0x1000 else s.i.toNat) ∧
      KeptExcept [.mem, .i] s t

/-- FX65 (R99) on a range in memory: V[0]..V[X] from I upwards, then Q_INDEX's increment (its wrap is the spec's decision D20).
The premise on the range is the spec's decision D12. -/
def Obligations.LoadMultipleReadsRegisters : Prop :=
  ∀ (x : Reg) (s : State), InMemory s.base (x.val + 1) →
    ∃ t, exec (.ldm x) s = .next t ∧
      (∀ r : Reg, t.reg r = if r.val ≤ x.val then s.mem.read (s.base + r.val) else s.reg r) ∧
      t.i.toNat = (if s.quirks.index then (s.i.toNat + x.val + 1) % 0x1000 else s.i.toNat) ∧
      KeptExcept [.v, .i] s t

/-- FX33 and FX55 on a bad range take their fault and store nothing: out of memory first, with the lowest address above 0x0FFF,
else the lowest font address (R97, R98, R100, R128; the spec's decisions D12 to D14, and D17 for the font region's end). -/
def Obligations.BadStoresFaultAndStoreNothing : Prop :=
  ∀ (i : Instr) (x : Reg) (n : Nat) (s : State), (i = .bcd x ∧ n = 3) ∨ (i = .stm x ∧ n = x.val + 1) →
    (¬ InMemory s.base n → ∃ t, exec i s = .next t ∧
      t.fault = ⟨.memoryFault .dataWrite, s.pc - 2, BitVec.ofNat 16 (max s.base 0x1000)⟩ ∧ t.pc = s.pc - 2 ∧
      t.report = none ∧ KeptExcept [.pc, .fault, .report] s t) ∧
    (InMemory s.base n → ¬ MissesFont s.base n → ∃ t, exec i s = .next t ∧
      t.fault = ⟨.memoryFault .fontWrite, s.pc - 2, BitVec.ofNat 16 (max s.base 0x050)⟩ ∧ t.pc = s.pc - 2 ∧
      t.report = none ∧ KeptExcept [.pc, .fault, .report] s t)

/-- FX65 and DXYN on a range that leaves memory take MemoryFault(DataRead) and change nothing else; DXYN with N = 0 never does
(R99, R102, R128; the spec's decisions D12, D13 and D25). -/
def Obligations.BadReadsFaultAndChangeNothing : Prop :=
  ∀ (i : Instr) (x y : Reg) (n : Count) (s : State),
    (i = .ldm x ∧ ¬ InMemory s.base (x.val + 1)) ∨ (i = .drw x y n ∧ n ≠ 0 ∧ ¬ InMemory s.base n.val) →
    ∃ t, exec i s = .next t ∧ t.fault = ⟨.memoryFault .dataRead, s.pc - 2, 0x1000⟩ ∧ t.pc = s.pc - 2 ∧ t.report = none ∧
      KeptExcept [.pc, .fault, .report] s t

/-! ### Display -/

/-- 00E0 (R101): its word; the whole buffer is cleared in both resolutions and DIRTY is set. -/
def Obligations.ClearBlanksTheWholeBuffer : Prop :=
  decodeWord 0x00E0 = .ok .cls ∧ ∀ s : State, ∃ t, exec .cls s = .next t ∧ (∀ px py, t.disp.cell px py = false) ∧ t.dirty = true ∧
    KeptExcept [.disp, .dirty] s t

/-- DXYN (R102, R103): exactly the cells the sprite covers flip, VF = 1 exactly when one of them was lit, DIRTY is set. The base
wraps and the body clips. (N = 0, the bounds check of clipped rows and the cell-by-cell XOR in low resolution are the spec's
decisions D24, D25 and D39.) -/
def Obligations.DrawFlipsTheCoveredCells : Prop :=
  ∀ (x y : Reg) (n : Count) (s : State), n = 0 ∨ InMemory s.base n.val →
    ∃ t, exec (.drw x y n) s = .next t ∧
      (∀ px py, px < 128 → py < 64 →
        (SpriteCovers s x y n px py → t.disp.cell px py = !s.disp.cell px py) ∧
        (¬ SpriteCovers s x y n px py → t.disp.cell px py = s.disp.cell px py)) ∧
      ((∃ px py, px < 128 ∧ py < 64 ∧ SpriteCovers s x y n px py ∧ s.disp.cell px py = true) → t.reg 15 = 1) ∧
      ((∀ px py, px < 128 → py < 64 → SpriteCovers s x y n px py → s.disp.cell px py = false) → t.reg 15 = 0) ∧
      t.dirty = true ∧ (∀ r, r ≠ 15 → t.reg r = s.reg r) ∧ KeptExcept [.v, .disp, .dirty] s t

/-- Drawing the same sprite twice at the same place restores the buffer, and the second draw collides exactly when the first
left a covered cell lit (the source's draw law, `95_test_vectors.md` S5). -/
def Obligations.DrawingTwiceRestoresTheBuffer : Prop :=
  ∀ (x y : Reg) (n : Count) (s t u : State), x ≠ 15 → y ≠ 15 → (n = 0 ∨ InMemory s.base n.val) →
    exec (.drw x y n) s = .next t → exec (.drw x y n) t = .next u →
    (∀ px py, u.disp.cell px py = s.disp.cell px py) ∧
    (u.reg 15 = 1 ↔ ∃ px py, px < 128 ∧ py < 64 ∧ SpriteCovers s x y n px py ∧ t.disp.cell px py = true)

/-- 00CN (R104, R109): the buffer moves down by `a` rows, `a` the scaled amount; nothing wraps (the extent and DIRTY are the
spec's decisions D27 and D40). -/
def Obligations.ScrollDownMovesRows : Prop :=
  ∀ (n : Count) (s : State) (a : Nat), a = (if s.hires ∨ s.quirks.scroll then n.val else 2 * n.val) →
    ∃ t, exec (.scd n) s = .next t ∧
      (∀ px py, px < 128 → py < 64 → t.disp.cell px py = if a ≤ py then s.disp.cell px (py - a) else false) ∧
      t.dirty = true ∧ KeptExcept [.disp, .dirty] s t

/-- 00FB and 00FC (R105, R106, R109): the buffer moves by `a` columns, 4 or 8; nothing wraps (the amount of 00FC, the extent and
DIRTY are the spec's decisions D28, D40 and D27). -/
def Obligations.SidewaysScrollsMoveColumns : Prop :=
  ∀ (s : State) (a : Nat), a = (if s.hires ∨ s.quirks.scroll then 4 else 8) →
    (∃ t, exec .scr s = .next t ∧
      (∀ px py, px < 128 → py < 64 → t.disp.cell px py = if a ≤ px then s.disp.cell (px - a) py else false) ∧
      t.dirty = true ∧ KeptExcept [.disp, .dirty] s t) ∧
    (∃ t, exec .scl s = .next t ∧
      (∀ px py, px < 128 → py < 64 → t.disp.cell px py = if px + a ≤ 127 then s.disp.cell (px + a) py else false) ∧
      t.dirty = true ∧ KeptExcept [.disp, .dirty] s t)

/-- 00FE and 00FF (R107, R108): the resolution is forced; DISP and DIRTY are not changed (the spec's decision D27). -/
def Obligations.ResolutionSwitchesOnlyForceHires : Prop :=
  ∀ s : State,
    (∃ t, exec .lores s = .next t ∧ t.hires = false ∧ KeptExcept [.hires] s t) ∧
    (∃ t, exec .hires s = .next t ∧ t.hires = true ∧ KeptExcept [.hires] s t)

/-! ### Keypad, timers, RPL flags, exit -/

/-- EX9E and EXA1 (R111, R112, R120): the key is down when bit 4 of `key_input` is set and V[X] is its low nibble, all 8 bits
compared; exactly one of the two skips. (The layout of `key_input` and the 8-bit comparison are the spec's decisions D2 and
D3.) -/
def Obligations.KeySkipsTestTheOneKeyDown : Prop :=
  ∀ (x : Reg) (s : State) (down : Bool),
    (down = true ↔ s.input.keyInput.toNat / 16 % 2 = 1 ∧ (s.reg x).toNat = s.input.keyInput.toNat % 16) →
    (∃ t, exec (.skp x) s = .next t ∧ t.pc = (if down then s.pc + 2 else s.pc) ∧ KeptExcept [.pc] s t) ∧
    (∃ t, exec (.sknp x) s = .next t ∧ t.pc = (if down then s.pc else s.pc + 2) ∧ KeptExcept [.pc] s t)

/-- FX0A (R113): with a key down its code goes to V[X]; else PC goes back by 2 and nothing else changes (the layout of
`key_input` and the level test are the spec's decisions D2 and D37). -/
def Obligations.WaitForKeyTakesItOrRetries : Prop :=
  ∀ (x : Reg) (s : State),
    (s.input.keyInput.toNat / 16 % 2 = 1 → ∃ t, exec (.waitk x) s = .next t ∧
      (t.reg x).toNat = s.input.keyInput.toNat % 16 ∧ (∀ r, r ≠ x → t.reg r = s.reg r) ∧ KeptExcept [.v] s t) ∧
    (s.input.keyInput.toNat / 16 % 2 = 0 → ∃ t, exec (.waitk x) s = .next t ∧ t.pc = s.pc - 2 ∧ KeptExcept [.pc] s t)

/-- FX07, FX15, FX18 (R114 to R116): one timer or one register moves, and `sound_off` follows ST at once. That TDEADLINE stays
is the spec's decision D38. -/
def Obligations.TimerInstructionsMoveOneByte : Prop :=
  ∀ (x : Reg) (s : State),
    (∃ t, exec (.lddt x) s = .next t ∧ t.reg x = s.dt ∧ (∀ r, r ≠ x → t.reg r = s.reg r) ∧ KeptExcept [.v] s t) ∧
    (∃ t, exec (.stdt x) s = .next t ∧ t.dt = s.reg x ∧ KeptExcept [.dt] s t) ∧
    (∃ t, exec (.stst x) s = .next t ∧ t.st = s.reg x ∧ t.soundOff = decide ((s.reg x).toNat = 0) ∧ KeptExcept [.st] s t)

/-- FX75 and FX85 (R117, R118): registers and RPL bytes 0 to min(X, 7) move, the others keep their values (the bank is the spec's
decision D29). -/
def Obligations.RplInstructionsMoveClampedPrefix : Prop :=
  ∀ (x : Reg) (s : State),
    (∃ t, exec (.strpl x) s = .next t ∧
      (∀ k : Fin 8, t.rpl[k] = if k.val ≤ min x.val 7 then s.reg ⟨k.val, by omega⟩ else s.rpl[k]) ∧
      KeptExcept [.rpl] s t) ∧
    (∃ t, exec (.ldrpl x) s = .next t ∧
      (∀ k : Fin 8, t.reg ⟨k.val, by omega⟩ = if k.val ≤ min x.val 7 then s.rpl[k] else s.reg ⟨k.val, by omega⟩) ∧
      (∀ r : Reg, 8 ≤ r.val → t.reg r = s.reg r) ∧ KeptExcept [.v] s t)

/-- 00FD (R119): EXIT is set, nothing else changes, and the core does not halt (the spec's decision D30). -/
def Obligations.ExitSetsTheExitFlag : Prop :=
  ∀ s : State, ∃ t, exec .exit s = .next t ∧ t.exit = true ∧ t.halted = s.halted ∧ KeptExcept [.exit] s t
end

