-- ==== Sys2Proof/Laws/Encoding.lean ====
section
/-! SUPPORT. The opcode table's rows are disjoint, the formats' fields and fixed bits, and what a word that a row selects decodes
to. -/

namespace Sys2Proof

theorem Field.fits_reg (name : String) (x : Reg) : (Field.reg name x).fits = true := by
  exact decide_eq_true x.isLt

theorem Field.fits_bitVec (name : String) {w : Nat} (b : BitVec w) : Field.fits ⟨name, w, b.toNat⟩ = true := by
  exact decide_eq_true b.isLt

/-- Every term of `Instr` is well-formed: its operand types carry the bounds. -/
theorem wellFormed_all (i : Instr) : i.wellFormed = true := by
  have hn : ∀ n : Count, Field.fits ⟨"N", 4, n.val⟩ = true := fun n => Field.fits_reg "N" n
  cases i <;> simp only [Instr.wellFormed, Instr.fields, List.all_cons, List.all_nil, Field.fits_reg, Field.fits_bitVec, hn,
    Bool.and_self]

/-- Two rows share no word: some bit is fixed by both, to different values (`30_encoding.md` R57). -/
def OpcodeRow.disjoint (r q : OpcodeRow) : Bool := ((r.matchWord ^^^ q.matchWord) &&& (r.mask &&& q.mask)) != 0

theorem opcodeTable_length : opcodeTable.length = 43 := rfl

theorem opcodeTable_disjoint : opcodeTable.Pairwise (fun r q => r.disjoint q = true) := by
  decide

/-- The word's fixed bits are the row's match word. -/
theorem OpcodeRow.selects_of {r : OpcodeRow} {w : Word} (h : w &&& r.mask = r.matchWord) : r.selects w = true := by
  simp [OpcodeRow.selects, h]

theorem OpcodeRow.not_selects_of_disjoint {r q : OpcodeRow} {w : Word} (h : r.disjoint q = true)
    (hr : r.selects w = true) : q.selects w = false := by
  rw [Bool.eq_false_iff]
  intro hq
  simp only [OpcodeRow.disjoint, OpcodeRow.selects, bne_iff_ne, ne_eq, beq_iff_eq] at h hr hq
  apply h
  rw [← hr, ← hq]
  ext k hk
  simp only [BitVec.getElem_and, BitVec.getElem_xor]
  cases w[k] <;> cases r.mask[k] <;> cases q.mask[k] <;> simp

theorem OpcodeRow.disjoint_comm (r q : OpcodeRow) : r.disjoint q = q.disjoint r := by
  simp only [OpcodeRow.disjoint]
  rw [BitVec.xor_comm, BitVec.and_comm r.mask]

/-- The word a row selects is decoded by that row, wherever the row stands in the table. -/
theorem decodeWord_of_row {r : OpcodeRow} {w : Word} (hr : r ∈ opcodeTable) (hs : r.selects w = true) :
    decodeWord w = .ok (r.build w) := by
  have key : opcodeTable.find? (·.selects w) = some r := by
    obtain ⟨as, bs, hsplit⟩ := List.append_of_mem hr
    rw [List.find?_eq_some_iff_append]
    refine ⟨hs, as, bs, hsplit, fun q hq => ?_⟩
    have hp := opcodeTable_disjoint
    rw [hsplit] at hp
    have hd := (List.pairwise_append.1 hp).2.2 q hq r (by simp)
    rw [OpcodeRow.disjoint_comm] at hd
    simpa using OpcodeRow.not_selects_of_disjoint hd hs
  simp [decodeWord, key]

/-- A word that decodes was selected by a row of the table, which built the instruction. -/
theorem decodeWord_eq_ok {w : Word} {i : Instr} (h : decodeWord w = .ok i) :
    ∃ r ∈ opcodeTable, r.selects w = true ∧ r.build w = i := by
  unfold decodeWord at h
  split at h
  · rename_i r hr
    exact ⟨r, List.mem_of_find?_eq_some hr, by simpa using List.find?_some hr, by simpa using h⟩
  · simp at h

/-- The decoder rejects a word by its own name, exactly when no row selects it. -/
theorem decodeWord_eq_error {w : Word} {e : DecodeError} :
    decodeWord w = .error e ↔ e = .unrecognized w ∧ ∀ r ∈ opcodeTable, r.selects w = false := by
  unfold decodeWord
  cases h : opcodeTable.find? (·.selects w) with
  | some r =>
    simp only [reduceCtorEq, false_iff, not_and]
    intro _ hall
    have := List.find?_some h
    simp [hall r (List.mem_of_find?_eq_some h)] at this
  | none =>
    rw [List.find?_eq_none] at h
    simp only [Except.error.injEq]
    constructor
    · intro he; exact ⟨he.symm, fun r hr => by simpa using h r hr⟩
    · intro he; exact he.1.symm

/-! ### The fields of each format -/

theorem fieldN_formatZN (k : BitVec 12) (n : Count) : fieldN (formatZN k n) = n :=
  congrArg BitVec.toFin (a₂ := (BitVec.ofFin n : BitVec 4))
    ((BitVec.extractLsb'_append_eq_of_add_le (by decide)).trans BitVec.extractLsb'_eq_self)

theorem fieldNNN_formatNNN (op : BitVec 4) (nnn : Addr12) : fieldNNN (formatNNN op nnn) = nnn :=
  (BitVec.extractLsb'_append_eq_of_add_le (by decide)).trans BitVec.extractLsb'_eq_self

theorem fieldX_formatXNN (op : BitVec 4) (x : Reg) (low : Byte) : fieldX (formatXNN op x low) = x :=
  congrArg BitVec.toFin (a₂ := (BitVec.ofFin x : BitVec 4))
    ((BitVec.extractLsb'_append_eq_of_add_le (by decide)).trans
      ((BitVec.extractLsb'_append_eq_of_le (by decide)).trans BitVec.extractLsb'_eq_self))

theorem fieldNN_formatXNN (op : BitVec 4) (x : Reg) (low : Byte) : fieldNN (formatXNN op x low) = low :=
  (BitVec.extractLsb'_append_eq_of_add_le (by decide)).trans
    ((BitVec.extractLsb'_append_eq_of_add_le (by decide)).trans BitVec.extractLsb'_eq_self)

theorem fieldX_formatXYN (op : BitVec 4) (x y : Reg) (low : BitVec 4) : fieldX (formatXYN op x y low) = x :=
  congrArg BitVec.toFin (a₂ := (BitVec.ofFin x : BitVec 4))
    ((BitVec.extractLsb'_append_eq_of_add_le (by decide)).trans
      ((BitVec.extractLsb'_append_eq_of_le (by decide)).trans BitVec.extractLsb'_eq_self))

theorem fieldY_formatXYN (op : BitVec 4) (x y : Reg) (low : BitVec 4) : fieldY (formatXYN op x y low) = y :=
  congrArg BitVec.toFin (a₂ := (BitVec.ofFin y : BitVec 4))
    ((BitVec.extractLsb'_append_eq_of_add_le (by decide)).trans
      ((BitVec.extractLsb'_append_eq_of_add_le (by decide)).trans
        ((BitVec.extractLsb'_append_eq_of_le (by decide)).trans BitVec.extractLsb'_eq_self)))

theorem fieldN_formatXYN (op : BitVec 4) (x y n : Reg) : fieldN (formatXYN op x y (BitVec.ofFin n)) = n :=
  congrArg BitVec.toFin (a₂ := (BitVec.ofFin n : BitVec 4))
    ((BitVec.extractLsb'_append_eq_of_add_le (by decide)).trans
      ((BitVec.extractLsb'_append_eq_of_add_le (by decide)).trans
        ((BitVec.extractLsb'_append_eq_of_add_le (by decide)).trans BitVec.extractLsb'_eq_self)))

/-! ### The fixed bits of each format: the word cut by the format's mask -/

theorem formatZN_and (k : BitVec 12) (n : Count) : formatZN k n &&& 0xFFF0 = k ++ (0 : BitVec 4) :=
  (BitVec.and_append (x₂ := 0xFFF#12) (y₂ := 0x0#4)).trans
    (congrArg₂ _ BitVec.and_allOnes BitVec.and_zero)

theorem formatNNN_and (op : BitVec 4) (nnn : Addr12) : formatNNN op nnn &&& 0xF000 = op ++ (0 : BitVec 12) :=
  (BitVec.and_append (x₂ := 0xF#4) (y₂ := 0x000#12)).trans
    (congrArg₂ _ BitVec.and_allOnes BitVec.and_zero)

theorem formatXNN_and (op : BitVec 4) (x : Reg) (low m : Byte) :
    formatXNN op x low &&& ((0xF : BitVec 4) ++ ((0x0 : BitVec 4) ++ m)) =
      op ++ ((0 : BitVec 4) ++ (low &&& m)) :=
  (BitVec.and_append (x₂ := 0xF#4)).trans
    (congrArg₂ _ BitVec.and_allOnes (BitVec.and_append.trans (congrArg₂ _ BitVec.and_zero rfl)))

theorem formatXNN_op (op : BitVec 4) (x : Reg) (low : Byte) :
    formatXNN op x low &&& 0xF000 = op ++ ((0 : BitVec 4) ++ (0 : Byte)) :=
  (formatXNN_and op x low 0).trans (congrArg (fun z : Byte => op ++ ((0 : BitVec 4) ++ z)) BitVec.and_zero)

theorem formatXYN_and (op : BitVec 4) (x y : Reg) (low m : BitVec 4) :
    formatXYN op x y low &&& ((0xF : BitVec 4) ++ ((0x0 : BitVec 4) ++ ((0x0 : BitVec 4) ++ m))) =
      op ++ ((0 : BitVec 4) ++ ((0 : BitVec 4) ++ (low &&& m))) :=
  (BitVec.and_append (x₂ := 0xF#4)).trans
    (congrArg₂ _ BitVec.and_allOnes
      (BitVec.and_append.trans
        (congrArg₂ _ BitVec.and_zero (BitVec.and_append.trans (congrArg₂ _ BitVec.and_zero rfl)))))

theorem formatXYN_op (op : BitVec 4) (x y : Reg) (low : BitVec 4) :
    formatXYN op x y low &&& 0xF000 = op ++ ((0 : BitVec 4) ++ ((0 : BitVec 4) ++ (0 : BitVec 4))) :=
  (formatXYN_and op x y low 0).trans
    (congrArg (fun z : BitVec 4 => op ++ ((0 : BitVec 4) ++ ((0 : BitVec 4) ++ z))) BitVec.and_zero)

/-! ### The words as numbers -/

theorem formatNNN_eq_ofNat (op : BitVec 4) (nnn : Addr12) :
    formatNNN op nnn = BitVec.ofNat 16 (op.toNat * 4096 + nnn.toNat) := by
  have := nnn.isLt
  have := op.isLt
  apply BitVec.eq_of_toNat_eq
  rw [formatNNN, BitVec.toNat_append, ← Nat.shiftLeft_add_eq_or_of_lt nnn.isLt, Nat.shiftLeft_eq, BitVec.toNat_ofNat]
  omega

theorem formatXNN_eq_ofNat (op : BitVec 4) (x : Reg) (low : Byte) :
    formatXNN op x low = BitVec.ofNat 16 (op.toNat * 4096 + x.val * 256 + low.toNat) := by
  have h1 := low.isLt
  have h2 := op.isLt
  have hx : (BitVec.ofFin x ++ low : BitVec 12).toNat = x.val * 256 + low.toNat := by
    rw [BitVec.toNat_append, ← Nat.shiftLeft_add_eq_or_of_lt low.isLt, Nat.shiftLeft_eq]; rfl
  apply BitVec.eq_of_toNat_eq
  rw [formatXNN, BitVec.toNat_append, ← Nat.shiftLeft_add_eq_or_of_lt (BitVec.isLt _), Nat.shiftLeft_eq, hx,
    BitVec.toNat_ofNat]
  omega

theorem formatXYN_eq_ofNat (op : BitVec 4) (x y : Reg) (low : BitVec 4) :
    formatXYN op x y low = BitVec.ofNat 16 (op.toNat * 4096 + x.val * 256 + y.val * 16 + low.toNat) := by
  have h1 := low.isLt
  have hy : (BitVec.ofFin y ++ low : Byte).toNat = y.val * 16 + low.toNat := by
    rw [BitVec.toNat_append, ← Nat.shiftLeft_add_eq_or_of_lt low.isLt, Nat.shiftLeft_eq]; rfl
  have h := formatXNN_eq_ofNat op x (BitVec.ofFin y ++ low)
  rw [hy] at h
  rw [show op.toNat * 4096 + x.val * 256 + y.val * 16 + low.toNat = op.toNat * 4096 + x.val * 256 + (y.val * 16 + low.toNat)
    by omega]
  exact h

end Sys2Proof
end

