-- ==== Sys2Proof/Laws/Memory.lean ====
section
/-! SUPPORT. What the memory operations do: reading after writing, the canonical form kept, the range checks. -/

namespace Sys2Proof.Machine

theorem Memory.read_put_other {a c : Nat} (b : Byte) (m : Memory) (h : c ≠ a) :
    Memory.read (Memory.put a b m) c = Memory.read m c := by
  unfold Memory.put; split
  · rfl
  · simp [Memory.read, h]

/-- A write leaves every other address alone, in any list. -/
theorem Memory.read_write_other (m : Memory) {a c : Nat} (b : Byte) (h : c ≠ a) :
    (m.write a b).read c = m.read c := by
  induction m with
  | nil => exact Memory.read_put_other b [] h
  | cons e rest ih =>
    obtain ⟨k, v⟩ := e
    unfold Memory.write; split
    · exact Memory.read_put_other b _ h
    · split
      · rename_i hk; subst hk
        rw [Memory.read_put_other b _ h]; simp [Memory.read, h]
      · simp [Memory.read, ih]

theorem Memory.wf_cons {k : Nat} {v : Byte} {rest : Memory} :
    Memory.wf ((k, v) :: rest) = true ↔
      k < 4096 ∧ v ≠ resetByte k ∧ (∀ c ∈ rest, k < c.1) ∧ Memory.wf rest = true := by
  simp [Memory.wf, and_assoc]

/-- An address below every entry reads as after reset. -/
theorem Memory.read_of_lt : ∀ (m : Memory) {a : Nat}, (∀ c ∈ m, a < c.1) → m.read a = resetByte a
  | [], _, _ => rfl
  | (k, v) :: rest, a, h => by
    have hk : a ≠ k := Nat.ne_of_lt (h (k, v) (by simp))
    simp only [Memory.read, if_neg hk]
    exact Memory.read_of_lt rest fun c hc => h c (by simp [hc])

theorem Memory.read_put_same {a : Nat} (b : Byte) {m : Memory} (h : ∀ c ∈ m, a < c.1) :
    Memory.read (Memory.put a b m) a = b := by
  unfold Memory.put; split
  · rename_i hb; rw [Memory.read_of_lt m h, hb]
  · simp [Memory.read]

/-- A read after a write to the same place gives the value written. -/
theorem Memory.read_write_same {m : Memory} (h : m.wf = true) (a : Nat) (b : Byte) : (m.write a b).read a = b := by
  induction m with
  | nil => exact Memory.read_put_same b (by simp)
  | cons e rest ih =>
    obtain ⟨k, v⟩ := e
    obtain ⟨-, -, hr, hw⟩ := Memory.wf_cons.1 h
    unfold Memory.write; split
    · rename_i hlt
      refine Memory.read_put_same b fun c hc => ?_
      rcases List.mem_cons.1 hc with rfl | hc
      · exact hlt
      · exact Nat.lt_trans hlt (hr c hc)
    · split
      · rename_i hk; subst hk
        exact Memory.read_put_same b hr
      · rename_i _ hk
        simp only [Memory.read, if_neg hk]; exact ih hw

theorem Memory.read_write {m : Memory} (h : m.wf = true) (a c : Nat) (b : Byte) :
    (m.write a b).read c = if c = a then b else m.read c := by
  split
  · rename_i hc; subst hc; exact Memory.read_write_same h _ b
  · rename_i hc; exact Memory.read_write_other m b hc

theorem Memory.mem_put {a : Nat} {b : Byte} {m : Memory} {c : Host.Cell} (h : c ∈ Memory.put a b m) :
    c = (a, b) ∨ c ∈ m := by
  unfold Memory.put at h; split at h
  · exact .inr h
  · exact List.mem_cons.1 h

theorem Memory.wf_put {a : Nat} {b : Byte} {m : Memory} (ha : a < 4096) (h : m.wf = true) (hl : ∀ c ∈ m, a < c.1) :
    Memory.wf (Memory.put a b m) = true := by
  unfold Memory.put; split
  · exact h
  · rename_i hb; exact Memory.wf_cons.2 ⟨ha, hb, hl, h⟩

theorem Memory.mem_write {m : Memory} {a : Nat} {b : Byte} {c : Host.Cell} (h : c ∈ m.write a b) :
    c = (a, b) ∨ c ∈ m := by
  induction m with
  | nil => exact Memory.mem_put h
  | cons e rest ih =>
    obtain ⟨k, v⟩ := e
    unfold Memory.write at h; split at h
    · exact Memory.mem_put h
    · split at h
      · exact (Memory.mem_put h).imp id (List.mem_cons_of_mem _)
      · rcases List.mem_cons.1 h with rfl | h
        · exact .inr List.mem_cons_self
        · exact (ih h).imp id (List.mem_cons_of_mem _)

/-- A write inside memory keeps the canonical form. -/
theorem Memory.wf_write {m : Memory} (h : m.wf = true) {a : Nat} (ha : a < 4096) (b : Byte) :
    (m.write a b).wf = true := by
  induction m with
  | nil => exact Memory.wf_put ha rfl (by simp)
  | cons e rest ih =>
    obtain ⟨k, v⟩ := e
    obtain ⟨hk, hv, hr, hw⟩ := Memory.wf_cons.1 h
    unfold Memory.write; split
    · rename_i hlt
      refine Memory.wf_put ha h fun c hc => ?_
      rcases List.mem_cons.1 hc with rfl | hc
      · exact hlt
      · exact Nat.lt_trans hlt (hr c hc)
    · split
      · rename_i hak; subst hak; exact Memory.wf_put ha hw hr
      · rename_i hlt hak
        refine Memory.wf_cons.2 ⟨hk, hv, fun c hc => ?_, ih hw⟩
        rcases Memory.mem_write hc with rfl | hc
        · exact Nat.lt_of_le_of_ne (Nat.le_of_not_lt hlt) (Ne.symm hak)
        · exact hr c hc

/-- Storing bytes inside memory keeps the canonical form. -/
theorem Memory.wf_writeBytes : ∀ (bs : List Byte) {m : Memory} {a : Nat}, m.wf = true → a + bs.length ≤ 4096 →
    (m.writeBytes a bs).wf = true
  | [], _, _, h, _ => h
  | b :: bs, _, _, h, hl => by
    simp only [List.length_cons] at hl
    exact Memory.wf_writeBytes bs (Memory.wf_write h (by omega) b) (by omega)

/-- Storing bytes leaves every address outside their range alone, in any list. -/
theorem Memory.read_writeBytes_other : ∀ (bs : List Byte) (m : Memory) (a c : Nat), c < a ∨ a + bs.length ≤ c →
    (m.writeBytes a bs).read c = m.read c
  | [], _, _, _, _ => rfl
  | b :: bs, m, a, c, h => by
    simp only [List.length_cons] at h
    rw [Memory.writeBytes, Memory.read_writeBytes_other bs _ _ _ (by omega), Memory.read_write_other m b (by omega)]

/-- Byte `k` of the stored bytes is read at the base plus `k`. -/
theorem Memory.read_writeBytes_at : ∀ (bs : List Byte) {m : Memory} {a : Nat}, m.wf = true → a + bs.length ≤ 4096 →
    ∀ k (hk : k < bs.length), (m.writeBytes a bs).read (a + k) = bs[k]
  | b :: bs, m, a, h, hl, 0, _ => by
    rw [Memory.writeBytes, Memory.read_writeBytes_other bs _ _ _ (by omega)]
    exact Memory.read_write_same h a b
  | b :: bs, m, a, h, hl, k + 1, hk => by
    simp only [List.length_cons] at hl hk
    have := Memory.read_writeBytes_at bs (Memory.wf_write h (a := a) (by omega) b) (a := a + 1) (by omega) k (by omega)
    rw [Memory.writeBytes, show a + (k + 1) = a + 1 + k by omega, this]; rfl

theorem inFontRegion_iff {a : Nat} : inFontRegion a = true ↔ 0x050 ≤ a ∧ a ≤ 0x13F := by
  simp only [inFontRegion, Bool.and_eq_true, decide_eq_true_eq]
  simp only [fontBase, fontRegionEnd]

theorem outOfMemory_iff {base n : Nat} : outOfMemory base n = true ↔ 0 < n ∧ 0x1000 < base + n := by
  simp only [outOfMemory, Bool.and_eq_true, decide_eq_true_eq]; omega

theorem checkRead_eq_none {base n : Nat} : checkRead base n = none ↔ n = 0 ∨ base + n ≤ 0x1000 := by
  unfold checkRead; split <;> rename_i h
  · rw [outOfMemory_iff] at h; simp; omega
  · rw [outOfMemory_iff] at h; simp; omega

/-- What `CheckWrite` lets through: a range in memory that misses the font region. -/
theorem checkWrite_eq_none {base n : Nat} (hn : 0 < n) :
    checkWrite base n = none ↔ base + n ≤ 0x1000 ∧ (base + n ≤ 0x050 ∨ 0x13F < base) := by
  unfold checkWrite; split <;> rename_i h
  · rw [outOfMemory_iff] at h; simp; omega
  · rw [outOfMemory_iff] at h
    have key : (List.range' base n).find? inFontRegion = none ↔ (base + n ≤ 0x050 ∨ 0x13F < base) := by
      rw [List.find?_eq_none]
      constructor
      · intro hall
        by_contra hc
        push Not at hc
        exact hall (max base 0x050) (by rw [List.mem_range'_1]; omega) (inFontRegion_iff.2 (by omega))
      · intro hor a ha hf
        rw [List.mem_range'_1] at ha
        have := inFontRegion_iff.1 hf
        omega
    split
    · rename_i a hf; rw [hf] at key; simp at key; simp; omega
    · rename_i hf; rw [hf] at key; simp at key; simp; omega

/-- Every fault `CheckWrite` raises: out of memory, or the lowest font address of the range. -/
theorem checkWrite_eq_some {base n : Nat} {c : FaultCause} {a : Word} (h : checkWrite base n = some (c, a)) :
    (0x1000 < base + n ∧ c = .memoryFault .dataWrite ∧ a = BitVec.ofNat 16 (max base 0x1000)) ∨
    (base + n ≤ 0x1000 ∧ 0x050 < base + n ∧ base ≤ 0x13F ∧ c = .memoryFault .fontWrite ∧
      a = BitVec.ofNat 16 (max base 0x050)) := by
  unfold checkWrite at h; split at h <;> rename_i ho
  · rw [outOfMemory_iff] at ho; simp at h; exact .inl ⟨ho.2, h.1.symm, h.2.symm⟩
  · rw [outOfMemory_iff] at ho
    split at h
    · rename_i b hb
      simp only [Option.some.injEq, Prod.mk.injEq] at h
      obtain ⟨hb1, as, bs, hsplit, hnone⟩ := List.find?_eq_some_iff_append.1 hb
      have hb1 := inFontRegion_iff.1 hb1
      have hmem : b ∈ List.range' base n := by rw [hsplit]; simp
      rw [List.mem_range'_1] at hmem
      have hmax : b = max base 0x050 := by
        by_contra hne
        have hlt : max base 0x050 < b := by omega
        have hin : max base 0x050 ∈ List.range' base n := by rw [List.mem_range'_1]; omega
        have hsorted : (List.range' base n).Pairwise (· < ·) := List.pairwise_lt_range'
        rw [hsplit] at hin hsorted
        rcases List.mem_append.1 hin with h1 | h1
        · have := hnone _ h1
          rw [inFontRegion_iff.2 (by omega)] at this
          simp at this
        · rcases List.mem_cons.1 h1 with h2 | h2
          · omega
          · have := (List.pairwise_cons.1 (List.pairwise_append.1 hsorted).2.1).1 _ h2
            omega
      exact .inr ⟨by omega, by omega, by omega, h.1.symm, by rw [← h.2, hmax]⟩
    · simp at h

theorem Memory.readBytes_length (m : Memory) (a n : Nat) : (m.readBytes a n).length = n := by simp [Memory.readBytes]

theorem Memory.readBytes_getElem (m : Memory) (a n k : Nat) (hk : k < (m.readBytes a n).length) :
    (m.readBytes a n)[k] = m.read (a + k) := by simp [Memory.readBytes]

/-- A canonical memory lists nothing at or above 0x1000. -/
theorem Memory.lt_of_mem {m : Memory} (h : m.wf = true) {c : Host.Cell} (hc : c ∈ m) : c.1 < 4096 := by
  induction m with
  | nil => simp at hc
  | cons e rest ih =>
    obtain ⟨hk, -, -, hw⟩ := Memory.wf_cons.1 h
    rcases List.mem_cons.1 hc with rfl | hc
    · exact hk
    · exact ih hw hc

end Sys2Proof.Machine
end

