-- ==== Sys2Proof/Laws/State.lean ====
section
/-! SUPPORT. The fields of a state after each named update: one lemma per field per update, so that no proof unfolds a record
update. Then the registers one by one, and the presentation of inputs. -/

namespace Sys2Proof.Machine

variable (s : State)

/-! ### setReg -/

@[simp] theorem State.setReg_v (x : Reg) (b : Byte) : (s.setReg x b).v = s.v.set x b := rfl
@[simp] theorem State.setReg_pc (x : Reg) (b : Byte) : (s.setReg x b).pc = s.pc := rfl
@[simp] theorem State.setReg_i (x : Reg) (b : Byte) : (s.setReg x b).i = s.i := rfl
@[simp] theorem State.setReg_stack (x : Reg) (b : Byte) : (s.setReg x b).stack = s.stack := rfl
@[simp] theorem State.setReg_sp (x : Reg) (b : Byte) : (s.setReg x b).sp = s.sp := rfl
@[simp] theorem State.setReg_dt (x : Reg) (b : Byte) : (s.setReg x b).dt = s.dt := rfl
@[simp] theorem State.setReg_st (x : Reg) (b : Byte) : (s.setReg x b).st = s.st := rfl
@[simp] theorem State.setReg_tdeadline (x : Reg) (b : Byte) : (s.setReg x b).tdeadline = s.tdeadline := rfl
@[simp] theorem State.setReg_disp (x : Reg) (b : Byte) : (s.setReg x b).disp = s.disp := rfl
@[simp] theorem State.setReg_hires (x : Reg) (b : Byte) : (s.setReg x b).hires = s.hires := rfl
@[simp] theorem State.setReg_dirty (x : Reg) (b : Byte) : (s.setReg x b).dirty = s.dirty := rfl
@[simp] theorem State.setReg_exit (x : Reg) (b : Byte) : (s.setReg x b).exit = s.exit := rfl
@[simp] theorem State.setReg_quirks (x : Reg) (b : Byte) : (s.setReg x b).quirks = s.quirks := rfl
@[simp] theorem State.setReg_rpl (x : Reg) (b : Byte) : (s.setReg x b).rpl = s.rpl := rfl
@[simp] theorem State.setReg_fault (x : Reg) (b : Byte) : (s.setReg x b).fault = s.fault := rfl
@[simp] theorem State.setReg_mem (x : Reg) (b : Byte) : (s.setReg x b).mem = s.mem := rfl
@[simp] theorem State.setReg_report (x : Reg) (b : Byte) : (s.setReg x b).report = s.report := rfl
@[simp] theorem State.setReg_input (x : Reg) (b : Byte) : (s.setReg x b).input = s.input := rfl
@[simp] theorem State.setReg_upcoming (x : Reg) (b : Byte) : (s.setReg x b).upcoming = s.upcoming := rfl
@[simp] theorem State.setReg_drawn (x : Reg) (b : Byte) : (s.setReg x b).drawn = s.drawn := rfl
@[simp] theorem State.setReg_tickPeriod (x : Reg) (b : Byte) : (s.setReg x b).tickPeriod = s.tickPeriod := rfl

/-! ### setRegFlag -/

@[simp] theorem State.setRegFlag_v (x : Reg) (b f : Byte) : (s.setRegFlag x b f).v = (s.v.set x b).set vf f := rfl
@[simp] theorem State.setRegFlag_pc (x : Reg) (b f : Byte) : (s.setRegFlag x b f).pc = s.pc := rfl
@[simp] theorem State.setRegFlag_i (x : Reg) (b f : Byte) : (s.setRegFlag x b f).i = s.i := rfl
@[simp] theorem State.setRegFlag_stack (x : Reg) (b f : Byte) : (s.setRegFlag x b f).stack = s.stack := rfl
@[simp] theorem State.setRegFlag_sp (x : Reg) (b f : Byte) : (s.setRegFlag x b f).sp = s.sp := rfl
@[simp] theorem State.setRegFlag_dt (x : Reg) (b f : Byte) : (s.setRegFlag x b f).dt = s.dt := rfl
@[simp] theorem State.setRegFlag_st (x : Reg) (b f : Byte) : (s.setRegFlag x b f).st = s.st := rfl
@[simp] theorem State.setRegFlag_tdeadline (x : Reg) (b f : Byte) : (s.setRegFlag x b f).tdeadline = s.tdeadline := rfl
@[simp] theorem State.setRegFlag_disp (x : Reg) (b f : Byte) : (s.setRegFlag x b f).disp = s.disp := rfl
@[simp] theorem State.setRegFlag_hires (x : Reg) (b f : Byte) : (s.setRegFlag x b f).hires = s.hires := rfl
@[simp] theorem State.setRegFlag_dirty (x : Reg) (b f : Byte) : (s.setRegFlag x b f).dirty = s.dirty := rfl
@[simp] theorem State.setRegFlag_exit (x : Reg) (b f : Byte) : (s.setRegFlag x b f).exit = s.exit := rfl
@[simp] theorem State.setRegFlag_quirks (x : Reg) (b f : Byte) : (s.setRegFlag x b f).quirks = s.quirks := rfl
@[simp] theorem State.setRegFlag_rpl (x : Reg) (b f : Byte) : (s.setRegFlag x b f).rpl = s.rpl := rfl
@[simp] theorem State.setRegFlag_fault (x : Reg) (b f : Byte) : (s.setRegFlag x b f).fault = s.fault := rfl
@[simp] theorem State.setRegFlag_mem (x : Reg) (b f : Byte) : (s.setRegFlag x b f).mem = s.mem := rfl
@[simp] theorem State.setRegFlag_report (x : Reg) (b f : Byte) : (s.setRegFlag x b f).report = s.report := rfl
@[simp] theorem State.setRegFlag_input (x : Reg) (b f : Byte) : (s.setRegFlag x b f).input = s.input := rfl
@[simp] theorem State.setRegFlag_upcoming (x : Reg) (b f : Byte) : (s.setRegFlag x b f).upcoming = s.upcoming := rfl
@[simp] theorem State.setRegFlag_drawn (x : Reg) (b f : Byte) : (s.setRegFlag x b f).drawn = s.drawn := rfl
@[simp] theorem State.setRegFlag_tickPeriod (x : Reg) (b f : Byte) : (s.setRegFlag x b f).tickPeriod = s.tickPeriod := rfl

/-! ### setPc -/

@[simp] theorem State.setPc_v (p : Word) : (s.setPc p).v = s.v := rfl
@[simp] theorem State.setPc_pc (p : Word) : (s.setPc p).pc = p := rfl
@[simp] theorem State.setPc_i (p : Word) : (s.setPc p).i = s.i := rfl
@[simp] theorem State.setPc_stack (p : Word) : (s.setPc p).stack = s.stack := rfl
@[simp] theorem State.setPc_sp (p : Word) : (s.setPc p).sp = s.sp := rfl
@[simp] theorem State.setPc_dt (p : Word) : (s.setPc p).dt = s.dt := rfl
@[simp] theorem State.setPc_st (p : Word) : (s.setPc p).st = s.st := rfl
@[simp] theorem State.setPc_tdeadline (p : Word) : (s.setPc p).tdeadline = s.tdeadline := rfl
@[simp] theorem State.setPc_disp (p : Word) : (s.setPc p).disp = s.disp := rfl
@[simp] theorem State.setPc_hires (p : Word) : (s.setPc p).hires = s.hires := rfl
@[simp] theorem State.setPc_dirty (p : Word) : (s.setPc p).dirty = s.dirty := rfl
@[simp] theorem State.setPc_exit (p : Word) : (s.setPc p).exit = s.exit := rfl
@[simp] theorem State.setPc_quirks (p : Word) : (s.setPc p).quirks = s.quirks := rfl
@[simp] theorem State.setPc_rpl (p : Word) : (s.setPc p).rpl = s.rpl := rfl
@[simp] theorem State.setPc_fault (p : Word) : (s.setPc p).fault = s.fault := rfl
@[simp] theorem State.setPc_mem (p : Word) : (s.setPc p).mem = s.mem := rfl
@[simp] theorem State.setPc_report (p : Word) : (s.setPc p).report = s.report := rfl
@[simp] theorem State.setPc_input (p : Word) : (s.setPc p).input = s.input := rfl
@[simp] theorem State.setPc_upcoming (p : Word) : (s.setPc p).upcoming = s.upcoming := rfl
@[simp] theorem State.setPc_drawn (p : Word) : (s.setPc p).drawn = s.drawn := rfl
@[simp] theorem State.setPc_tickPeriod (p : Word) : (s.setPc p).tickPeriod = s.tickPeriod := rfl

/-! ### setIndex -/

@[simp] theorem State.setIndex_v (a : Word) : (s.setIndex a).v = s.v := rfl
@[simp] theorem State.setIndex_pc (a : Word) : (s.setIndex a).pc = s.pc := rfl
@[simp] theorem State.setIndex_i (a : Word) : (s.setIndex a).i = a := rfl
@[simp] theorem State.setIndex_stack (a : Word) : (s.setIndex a).stack = s.stack := rfl
@[simp] theorem State.setIndex_sp (a : Word) : (s.setIndex a).sp = s.sp := rfl
@[simp] theorem State.setIndex_dt (a : Word) : (s.setIndex a).dt = s.dt := rfl
@[simp] theorem State.setIndex_st (a : Word) : (s.setIndex a).st = s.st := rfl
@[simp] theorem State.setIndex_tdeadline (a : Word) : (s.setIndex a).tdeadline = s.tdeadline := rfl
@[simp] theorem State.setIndex_disp (a : Word) : (s.setIndex a).disp = s.disp := rfl
@[simp] theorem State.setIndex_hires (a : Word) : (s.setIndex a).hires = s.hires := rfl
@[simp] theorem State.setIndex_dirty (a : Word) : (s.setIndex a).dirty = s.dirty := rfl
@[simp] theorem State.setIndex_exit (a : Word) : (s.setIndex a).exit = s.exit := rfl
@[simp] theorem State.setIndex_quirks (a : Word) : (s.setIndex a).quirks = s.quirks := rfl
@[simp] theorem State.setIndex_rpl (a : Word) : (s.setIndex a).rpl = s.rpl := rfl
@[simp] theorem State.setIndex_fault (a : Word) : (s.setIndex a).fault = s.fault := rfl
@[simp] theorem State.setIndex_mem (a : Word) : (s.setIndex a).mem = s.mem := rfl
@[simp] theorem State.setIndex_report (a : Word) : (s.setIndex a).report = s.report := rfl
@[simp] theorem State.setIndex_input (a : Word) : (s.setIndex a).input = s.input := rfl
@[simp] theorem State.setIndex_upcoming (a : Word) : (s.setIndex a).upcoming = s.upcoming := rfl
@[simp] theorem State.setIndex_drawn (a : Word) : (s.setIndex a).drawn = s.drawn := rfl
@[simp] theorem State.setIndex_tickPeriod (a : Word) : (s.setIndex a).tickPeriod = s.tickPeriod := rfl

/-! ### skipIf -/

@[simp] theorem State.skipIf_v (c : Bool) : (s.skipIf c).v = s.v := rfl
@[simp] theorem State.skipIf_pc (c : Bool) : (s.skipIf c).pc = if c then s.pc + 2 else s.pc := rfl
@[simp] theorem State.skipIf_i (c : Bool) : (s.skipIf c).i = s.i := rfl
@[simp] theorem State.skipIf_stack (c : Bool) : (s.skipIf c).stack = s.stack := rfl
@[simp] theorem State.skipIf_sp (c : Bool) : (s.skipIf c).sp = s.sp := rfl
@[simp] theorem State.skipIf_dt (c : Bool) : (s.skipIf c).dt = s.dt := rfl
@[simp] theorem State.skipIf_st (c : Bool) : (s.skipIf c).st = s.st := rfl
@[simp] theorem State.skipIf_tdeadline (c : Bool) : (s.skipIf c).tdeadline = s.tdeadline := rfl
@[simp] theorem State.skipIf_disp (c : Bool) : (s.skipIf c).disp = s.disp := rfl
@[simp] theorem State.skipIf_hires (c : Bool) : (s.skipIf c).hires = s.hires := rfl
@[simp] theorem State.skipIf_dirty (c : Bool) : (s.skipIf c).dirty = s.dirty := rfl
@[simp] theorem State.skipIf_exit (c : Bool) : (s.skipIf c).exit = s.exit := rfl
@[simp] theorem State.skipIf_quirks (c : Bool) : (s.skipIf c).quirks = s.quirks := rfl
@[simp] theorem State.skipIf_rpl (c : Bool) : (s.skipIf c).rpl = s.rpl := rfl
@[simp] theorem State.skipIf_fault (c : Bool) : (s.skipIf c).fault = s.fault := rfl
@[simp] theorem State.skipIf_mem (c : Bool) : (s.skipIf c).mem = s.mem := rfl
@[simp] theorem State.skipIf_report (c : Bool) : (s.skipIf c).report = s.report := rfl
@[simp] theorem State.skipIf_input (c : Bool) : (s.skipIf c).input = s.input := rfl
@[simp] theorem State.skipIf_upcoming (c : Bool) : (s.skipIf c).upcoming = s.upcoming := rfl
@[simp] theorem State.skipIf_drawn (c : Bool) : (s.skipIf c).drawn = s.drawn := rfl
@[simp] theorem State.skipIf_tickPeriod (c : Bool) : (s.skipIf c).tickPeriod = s.tickPeriod := rfl

/-! ### setDisp -/

@[simp] theorem State.setDisp_v (d : Display) : (s.setDisp d).v = s.v := rfl
@[simp] theorem State.setDisp_pc (d : Display) : (s.setDisp d).pc = s.pc := rfl
@[simp] theorem State.setDisp_i (d : Display) : (s.setDisp d).i = s.i := rfl
@[simp] theorem State.setDisp_stack (d : Display) : (s.setDisp d).stack = s.stack := rfl
@[simp] theorem State.setDisp_sp (d : Display) : (s.setDisp d).sp = s.sp := rfl
@[simp] theorem State.setDisp_dt (d : Display) : (s.setDisp d).dt = s.dt := rfl
@[simp] theorem State.setDisp_st (d : Display) : (s.setDisp d).st = s.st := rfl
@[simp] theorem State.setDisp_tdeadline (d : Display) : (s.setDisp d).tdeadline = s.tdeadline := rfl
@[simp] theorem State.setDisp_disp (d : Display) : (s.setDisp d).disp = d := rfl
@[simp] theorem State.setDisp_hires (d : Display) : (s.setDisp d).hires = s.hires := rfl
@[simp] theorem State.setDisp_dirty (d : Display) : (s.setDisp d).dirty = true := rfl
@[simp] theorem State.setDisp_exit (d : Display) : (s.setDisp d).exit = s.exit := rfl
@[simp] theorem State.setDisp_quirks (d : Display) : (s.setDisp d).quirks = s.quirks := rfl
@[simp] theorem State.setDisp_rpl (d : Display) : (s.setDisp d).rpl = s.rpl := rfl
@[simp] theorem State.setDisp_fault (d : Display) : (s.setDisp d).fault = s.fault := rfl
@[simp] theorem State.setDisp_mem (d : Display) : (s.setDisp d).mem = s.mem := rfl
@[simp] theorem State.setDisp_report (d : Display) : (s.setDisp d).report = s.report := rfl
@[simp] theorem State.setDisp_input (d : Display) : (s.setDisp d).input = s.input := rfl
@[simp] theorem State.setDisp_upcoming (d : Display) : (s.setDisp d).upcoming = s.upcoming := rfl
@[simp] theorem State.setDisp_drawn (d : Display) : (s.setDisp d).drawn = s.drawn := rfl
@[simp] theorem State.setDisp_tickPeriod (d : Display) : (s.setDisp d).tickPeriod = s.tickPeriod := rfl

/-! ### takeFault -/

@[simp] theorem takeFault_v (c : FaultCause) (a p : Word) : (takeFault c a p s).v = s.v := rfl
@[simp] theorem takeFault_pc (c : FaultCause) (a p : Word) : (takeFault c a p s).pc = p := rfl
@[simp] theorem takeFault_i (c : FaultCause) (a p : Word) : (takeFault c a p s).i = s.i := rfl
@[simp] theorem takeFault_stack (c : FaultCause) (a p : Word) : (takeFault c a p s).stack = s.stack := rfl
@[simp] theorem takeFault_sp (c : FaultCause) (a p : Word) : (takeFault c a p s).sp = s.sp := rfl
@[simp] theorem takeFault_dt (c : FaultCause) (a p : Word) : (takeFault c a p s).dt = s.dt := rfl
@[simp] theorem takeFault_st (c : FaultCause) (a p : Word) : (takeFault c a p s).st = s.st := rfl
@[simp] theorem takeFault_tdeadline (c : FaultCause) (a p : Word) : (takeFault c a p s).tdeadline = s.tdeadline := rfl
@[simp] theorem takeFault_disp (c : FaultCause) (a p : Word) : (takeFault c a p s).disp = s.disp := rfl
@[simp] theorem takeFault_hires (c : FaultCause) (a p : Word) : (takeFault c a p s).hires = s.hires := rfl
@[simp] theorem takeFault_dirty (c : FaultCause) (a p : Word) : (takeFault c a p s).dirty = s.dirty := rfl
@[simp] theorem takeFault_exit (c : FaultCause) (a p : Word) : (takeFault c a p s).exit = s.exit := rfl
@[simp] theorem takeFault_quirks (c : FaultCause) (a p : Word) : (takeFault c a p s).quirks = s.quirks := rfl
@[simp] theorem takeFault_rpl (c : FaultCause) (a p : Word) : (takeFault c a p s).rpl = s.rpl := rfl
@[simp] theorem takeFault_fault (c : FaultCause) (a p : Word) : (takeFault c a p s).fault = ⟨c, p, a⟩ := rfl
@[simp] theorem takeFault_mem (c : FaultCause) (a p : Word) : (takeFault c a p s).mem = s.mem := rfl
@[simp] theorem takeFault_report (c : FaultCause) (a p : Word) : (takeFault c a p s).report = none := rfl
@[simp] theorem takeFault_input (c : FaultCause) (a p : Word) : (takeFault c a p s).input = s.input := rfl
@[simp] theorem takeFault_upcoming (c : FaultCause) (a p : Word) : (takeFault c a p s).upcoming = s.upcoming := rfl
@[simp] theorem takeFault_drawn (c : FaultCause) (a p : Word) : (takeFault c a p s).drawn = s.drawn := rfl
@[simp] theorem takeFault_tickPeriod (c : FaultCause) (a p : Word) : (takeFault c a p s).tickPeriod = s.tickPeriod := rfl

/-! ### timerPhase -/

@[simp] theorem State.timerPhase_v : s.timerPhase.v = s.v := rfl
@[simp] theorem State.timerPhase_pc : s.timerPhase.pc = s.pc := rfl
@[simp] theorem State.timerPhase_i : s.timerPhase.i = s.i := rfl
@[simp] theorem State.timerPhase_stack : s.timerPhase.stack = s.stack := rfl
@[simp] theorem State.timerPhase_sp : s.timerPhase.sp = s.sp := rfl
@[simp] theorem State.timerPhase_dt : s.timerPhase.dt = if s.tickDue then decFloor s.dt else s.dt := rfl
@[simp] theorem State.timerPhase_st : s.timerPhase.st = if s.tickDue then decFloor s.st else s.st := rfl
@[simp] theorem State.timerPhase_tdeadline : s.timerPhase.tdeadline = if s.tickDue then s.tdeadline + s.tickPeriod else s.tdeadline := rfl
@[simp] theorem State.timerPhase_disp : s.timerPhase.disp = s.disp := rfl
@[simp] theorem State.timerPhase_hires : s.timerPhase.hires = s.hires := rfl
@[simp] theorem State.timerPhase_dirty : s.timerPhase.dirty = s.dirty := rfl
@[simp] theorem State.timerPhase_exit : s.timerPhase.exit = s.exit := rfl
@[simp] theorem State.timerPhase_quirks : s.timerPhase.quirks = s.quirks := rfl
@[simp] theorem State.timerPhase_rpl : s.timerPhase.rpl = s.rpl := rfl
@[simp] theorem State.timerPhase_fault : s.timerPhase.fault = s.fault := rfl
@[simp] theorem State.timerPhase_mem : s.timerPhase.mem = s.mem := rfl
@[simp] theorem State.timerPhase_report : s.timerPhase.report = s.report := rfl
@[simp] theorem State.timerPhase_input : s.timerPhase.input = s.input := rfl
@[simp] theorem State.timerPhase_upcoming : s.timerPhase.upcoming = s.upcoming := rfl
@[simp] theorem State.timerPhase_drawn : s.timerPhase.drawn = s.drawn := rfl
@[simp] theorem State.timerPhase_tickPeriod : s.timerPhase.tickPeriod = s.tickPeriod := rfl

/-! ### beginStep -/

@[simp] theorem State.beginStep_v : s.beginStep.v = s.v := rfl
@[simp] theorem State.beginStep_pc : s.beginStep.pc = s.pc := rfl
@[simp] theorem State.beginStep_i : s.beginStep.i = s.i := rfl
@[simp] theorem State.beginStep_stack : s.beginStep.stack = s.stack := rfl
@[simp] theorem State.beginStep_sp : s.beginStep.sp = s.sp := rfl
@[simp] theorem State.beginStep_dt : s.beginStep.dt = if s.tickDue then decFloor s.dt else s.dt := rfl
@[simp] theorem State.beginStep_st : s.beginStep.st = if s.tickDue then decFloor s.st else s.st := rfl
@[simp] theorem State.beginStep_tdeadline : s.beginStep.tdeadline = if s.tickDue then s.tdeadline + s.tickPeriod else s.tdeadline := rfl
@[simp] theorem State.beginStep_disp : s.beginStep.disp = s.disp := rfl
@[simp] theorem State.beginStep_hires : s.beginStep.hires = s.hires := rfl
@[simp] theorem State.beginStep_dirty : s.beginStep.dirty = s.dirty := rfl
@[simp] theorem State.beginStep_exit : s.beginStep.exit = s.exit := rfl
@[simp] theorem State.beginStep_quirks : s.beginStep.quirks = s.quirks := rfl
@[simp] theorem State.beginStep_rpl : s.beginStep.rpl = s.rpl := rfl
@[simp] theorem State.beginStep_fault : s.beginStep.fault = s.fault := rfl
@[simp] theorem State.beginStep_mem : s.beginStep.mem = s.mem := rfl
@[simp] theorem State.beginStep_report : s.beginStep.report = none := rfl
@[simp] theorem State.beginStep_input : s.beginStep.input = s.input := rfl
@[simp] theorem State.beginStep_upcoming : s.beginStep.upcoming = s.upcoming := rfl
@[simp] theorem State.beginStep_drawn : s.beginStep.drawn = s.drawn := rfl
@[simp] theorem State.beginStep_tickPeriod : s.beginStep.tickPeriod = s.tickPeriod := rfl

/-! ### advance -/

@[simp] theorem State.advance_v : s.advance.v = s.v := rfl
@[simp] theorem State.advance_pc : s.advance.pc = s.pc + 2 := rfl
@[simp] theorem State.advance_i : s.advance.i = s.i := rfl
@[simp] theorem State.advance_stack : s.advance.stack = s.stack := rfl
@[simp] theorem State.advance_sp : s.advance.sp = s.sp := rfl
@[simp] theorem State.advance_dt : s.advance.dt = s.dt := rfl
@[simp] theorem State.advance_st : s.advance.st = s.st := rfl
@[simp] theorem State.advance_tdeadline : s.advance.tdeadline = s.tdeadline := rfl
@[simp] theorem State.advance_disp : s.advance.disp = s.disp := rfl
@[simp] theorem State.advance_hires : s.advance.hires = s.hires := rfl
@[simp] theorem State.advance_dirty : s.advance.dirty = s.dirty := rfl
@[simp] theorem State.advance_exit : s.advance.exit = s.exit := rfl
@[simp] theorem State.advance_quirks : s.advance.quirks = s.quirks := rfl
@[simp] theorem State.advance_rpl : s.advance.rpl = s.rpl := rfl
@[simp] theorem State.advance_fault : s.advance.fault = s.fault := rfl
@[simp] theorem State.advance_mem : s.advance.mem = s.mem := rfl
@[simp] theorem State.advance_report : s.advance.report = s.report := rfl
@[simp] theorem State.advance_input : s.advance.input = s.input := rfl
@[simp] theorem State.advance_upcoming : s.advance.upcoming = s.upcoming := rfl
@[simp] theorem State.advance_drawn : s.advance.drawn = s.drawn := rfl
@[simp] theorem State.advance_tickPeriod : s.advance.tickPeriod = s.tickPeriod := rfl

/-! ### reportWord -/

@[simp] theorem reportWord_v (w : Word) : (reportWord w s).v = s.v := rfl
@[simp] theorem reportWord_pc (w : Word) : (reportWord w s).pc = s.pc := rfl
@[simp] theorem reportWord_i (w : Word) : (reportWord w s).i = s.i := rfl
@[simp] theorem reportWord_stack (w : Word) : (reportWord w s).stack = s.stack := rfl
@[simp] theorem reportWord_sp (w : Word) : (reportWord w s).sp = s.sp := rfl
@[simp] theorem reportWord_dt (w : Word) : (reportWord w s).dt = s.dt := rfl
@[simp] theorem reportWord_st (w : Word) : (reportWord w s).st = s.st := rfl
@[simp] theorem reportWord_tdeadline (w : Word) : (reportWord w s).tdeadline = s.tdeadline := rfl
@[simp] theorem reportWord_disp (w : Word) : (reportWord w s).disp = s.disp := rfl
@[simp] theorem reportWord_hires (w : Word) : (reportWord w s).hires = s.hires := rfl
@[simp] theorem reportWord_dirty (w : Word) : (reportWord w s).dirty = s.dirty := rfl
@[simp] theorem reportWord_exit (w : Word) : (reportWord w s).exit = s.exit := rfl
@[simp] theorem reportWord_quirks (w : Word) : (reportWord w s).quirks = s.quirks := rfl
@[simp] theorem reportWord_rpl (w : Word) : (reportWord w s).rpl = s.rpl := rfl
@[simp] theorem reportWord_fault (w : Word) : (reportWord w s).fault = s.fault := rfl
@[simp] theorem reportWord_mem (w : Word) : (reportWord w s).mem = s.mem := rfl
@[simp] theorem reportWord_report (w : Word) : (reportWord w s).report = some w := rfl
@[simp] theorem reportWord_input (w : Word) : (reportWord w s).input = s.input := rfl
@[simp] theorem reportWord_upcoming (w : Word) : (reportWord w s).upcoming = s.upcoming := rfl
@[simp] theorem reportWord_drawn (w : Word) : (reportWord w s).drawn = s.drawn := rfl
@[simp] theorem reportWord_tickPeriod (w : Word) : (reportWord w s).tickPeriod = s.tickPeriod := rfl

/-! ### bumpIndex -/

@[simp] theorem State.bumpIndex_v (x : Reg) : (s.bumpIndex x).v = s.v := rfl
@[simp] theorem State.bumpIndex_pc (x : Reg) : (s.bumpIndex x).pc = s.pc := rfl
@[simp] theorem State.bumpIndex_i (x : Reg) : (s.bumpIndex x).i = if s.quirks.index then BitVec.ofNat 16 ((s.i.toNat + x.val + 1) % 0x1000) else s.i := rfl
@[simp] theorem State.bumpIndex_stack (x : Reg) : (s.bumpIndex x).stack = s.stack := rfl
@[simp] theorem State.bumpIndex_sp (x : Reg) : (s.bumpIndex x).sp = s.sp := rfl
@[simp] theorem State.bumpIndex_dt (x : Reg) : (s.bumpIndex x).dt = s.dt := rfl
@[simp] theorem State.bumpIndex_st (x : Reg) : (s.bumpIndex x).st = s.st := rfl
@[simp] theorem State.bumpIndex_tdeadline (x : Reg) : (s.bumpIndex x).tdeadline = s.tdeadline := rfl
@[simp] theorem State.bumpIndex_disp (x : Reg) : (s.bumpIndex x).disp = s.disp := rfl
@[simp] theorem State.bumpIndex_hires (x : Reg) : (s.bumpIndex x).hires = s.hires := rfl
@[simp] theorem State.bumpIndex_dirty (x : Reg) : (s.bumpIndex x).dirty = s.dirty := rfl
@[simp] theorem State.bumpIndex_exit (x : Reg) : (s.bumpIndex x).exit = s.exit := rfl
@[simp] theorem State.bumpIndex_quirks (x : Reg) : (s.bumpIndex x).quirks = s.quirks := rfl
@[simp] theorem State.bumpIndex_rpl (x : Reg) : (s.bumpIndex x).rpl = s.rpl := rfl
@[simp] theorem State.bumpIndex_fault (x : Reg) : (s.bumpIndex x).fault = s.fault := rfl
@[simp] theorem State.bumpIndex_mem (x : Reg) : (s.bumpIndex x).mem = s.mem := rfl
@[simp] theorem State.bumpIndex_report (x : Reg) : (s.bumpIndex x).report = s.report := rfl
@[simp] theorem State.bumpIndex_input (x : Reg) : (s.bumpIndex x).input = s.input := rfl
@[simp] theorem State.bumpIndex_upcoming (x : Reg) : (s.bumpIndex x).upcoming = s.upcoming := rfl
@[simp] theorem State.bumpIndex_drawn (x : Reg) : (s.bumpIndex x).drawn = s.drawn := rfl
@[simp] theorem State.bumpIndex_tickPeriod (x : Reg) : (s.bumpIndex x).tickPeriod = s.tickPeriod := rfl

/-! ### loadRegs -/

@[simp] theorem State.loadRegs_v (x : Reg) (a : Nat) : (s.loadRegs x a).v = Vector.ofFn fun k => if k.val ≤ x.val then s.mem.read (a + k.val) else s.v[k] := by unfold State.loadRegs; rfl
@[simp] theorem State.loadRegs_pc (x : Reg) (a : Nat) : (s.loadRegs x a).pc = s.pc := by unfold State.loadRegs; rfl
@[simp] theorem State.loadRegs_i (x : Reg) (a : Nat) : (s.loadRegs x a).i = s.i := by unfold State.loadRegs; rfl
@[simp] theorem State.loadRegs_stack (x : Reg) (a : Nat) : (s.loadRegs x a).stack = s.stack := by unfold State.loadRegs; rfl
@[simp] theorem State.loadRegs_sp (x : Reg) (a : Nat) : (s.loadRegs x a).sp = s.sp := by unfold State.loadRegs; rfl
@[simp] theorem State.loadRegs_dt (x : Reg) (a : Nat) : (s.loadRegs x a).dt = s.dt := by unfold State.loadRegs; rfl
@[simp] theorem State.loadRegs_st (x : Reg) (a : Nat) : (s.loadRegs x a).st = s.st := by unfold State.loadRegs; rfl
@[simp] theorem State.loadRegs_tdeadline (x : Reg) (a : Nat) : (s.loadRegs x a).tdeadline = s.tdeadline := by unfold State.loadRegs; rfl
@[simp] theorem State.loadRegs_disp (x : Reg) (a : Nat) : (s.loadRegs x a).disp = s.disp := by unfold State.loadRegs; rfl
@[simp] theorem State.loadRegs_hires (x : Reg) (a : Nat) : (s.loadRegs x a).hires = s.hires := by unfold State.loadRegs; rfl
@[simp] theorem State.loadRegs_dirty (x : Reg) (a : Nat) : (s.loadRegs x a).dirty = s.dirty := by unfold State.loadRegs; rfl
@[simp] theorem State.loadRegs_exit (x : Reg) (a : Nat) : (s.loadRegs x a).exit = s.exit := by unfold State.loadRegs; rfl
@[simp] theorem State.loadRegs_quirks (x : Reg) (a : Nat) : (s.loadRegs x a).quirks = s.quirks := by unfold State.loadRegs; rfl
@[simp] theorem State.loadRegs_rpl (x : Reg) (a : Nat) : (s.loadRegs x a).rpl = s.rpl := by unfold State.loadRegs; rfl
@[simp] theorem State.loadRegs_fault (x : Reg) (a : Nat) : (s.loadRegs x a).fault = s.fault := by unfold State.loadRegs; rfl
@[simp] theorem State.loadRegs_mem (x : Reg) (a : Nat) : (s.loadRegs x a).mem = s.mem := by unfold State.loadRegs; rfl
@[simp] theorem State.loadRegs_report (x : Reg) (a : Nat) : (s.loadRegs x a).report = s.report := by unfold State.loadRegs; rfl
@[simp] theorem State.loadRegs_input (x : Reg) (a : Nat) : (s.loadRegs x a).input = s.input := by unfold State.loadRegs; rfl
@[simp] theorem State.loadRegs_upcoming (x : Reg) (a : Nat) : (s.loadRegs x a).upcoming = s.upcoming := by unfold State.loadRegs; rfl
@[simp] theorem State.loadRegs_drawn (x : Reg) (a : Nat) : (s.loadRegs x a).drawn = s.drawn := by unfold State.loadRegs; rfl
@[simp] theorem State.loadRegs_tickPeriod (x : Reg) (a : Nat) : (s.loadRegs x a).tickPeriod = s.tickPeriod := by unfold State.loadRegs; rfl

/-! ### present -/

@[simp] theorem State.present_v (inp : StepInput) : (s.present inp).v = s.v := rfl
@[simp] theorem State.present_pc (inp : StepInput) : (s.present inp).pc = s.pc := rfl
@[simp] theorem State.present_i (inp : StepInput) : (s.present inp).i = s.i := rfl
@[simp] theorem State.present_stack (inp : StepInput) : (s.present inp).stack = s.stack := rfl
@[simp] theorem State.present_sp (inp : StepInput) : (s.present inp).sp = s.sp := rfl
@[simp] theorem State.present_dt (inp : StepInput) : (s.present inp).dt = s.dt := rfl
@[simp] theorem State.present_st (inp : StepInput) : (s.present inp).st = s.st := rfl
@[simp] theorem State.present_tdeadline (inp : StepInput) : (s.present inp).tdeadline = s.tdeadline := rfl
@[simp] theorem State.present_disp (inp : StepInput) : (s.present inp).disp = s.disp := rfl
@[simp] theorem State.present_hires (inp : StepInput) : (s.present inp).hires = s.hires := rfl
@[simp] theorem State.present_dirty (inp : StepInput) : (s.present inp).dirty = s.dirty := rfl
@[simp] theorem State.present_exit (inp : StepInput) : (s.present inp).exit = s.exit := rfl
@[simp] theorem State.present_quirks (inp : StepInput) : (s.present inp).quirks = s.quirks := rfl
@[simp] theorem State.present_rpl (inp : StepInput) : (s.present inp).rpl = s.rpl := rfl
@[simp] theorem State.present_fault (inp : StepInput) : (s.present inp).fault = s.fault := rfl
@[simp] theorem State.present_mem (inp : StepInput) : (s.present inp).mem = s.mem := rfl
@[simp] theorem State.present_report (inp : StepInput) : (s.present inp).report = s.report := rfl
@[simp] theorem State.present_input (inp : StepInput) : (s.present inp).input = inp := rfl
@[simp] theorem State.present_upcoming (inp : StepInput) : (s.present inp).upcoming = s.upcoming := rfl
@[simp] theorem State.present_drawn (inp : StepInput) : (s.present inp).drawn = s.drawn := rfl
@[simp] theorem State.present_tickPeriod (inp : StepInput) : (s.present inp).tickPeriod = s.tickPeriod := rfl

/-! ### consumeDisplay -/

@[simp] theorem State.consumeDisplay_v : s.consumeDisplay.v = s.v := rfl
@[simp] theorem State.consumeDisplay_pc : s.consumeDisplay.pc = s.pc := rfl
@[simp] theorem State.consumeDisplay_i : s.consumeDisplay.i = s.i := rfl
@[simp] theorem State.consumeDisplay_stack : s.consumeDisplay.stack = s.stack := rfl
@[simp] theorem State.consumeDisplay_sp : s.consumeDisplay.sp = s.sp := rfl
@[simp] theorem State.consumeDisplay_dt : s.consumeDisplay.dt = s.dt := rfl
@[simp] theorem State.consumeDisplay_st : s.consumeDisplay.st = s.st := rfl
@[simp] theorem State.consumeDisplay_tdeadline : s.consumeDisplay.tdeadline = s.tdeadline := rfl
@[simp] theorem State.consumeDisplay_disp : s.consumeDisplay.disp = s.disp := rfl
@[simp] theorem State.consumeDisplay_hires : s.consumeDisplay.hires = s.hires := rfl
@[simp] theorem State.consumeDisplay_dirty : s.consumeDisplay.dirty = false := rfl
@[simp] theorem State.consumeDisplay_exit : s.consumeDisplay.exit = s.exit := rfl
@[simp] theorem State.consumeDisplay_quirks : s.consumeDisplay.quirks = s.quirks := rfl
@[simp] theorem State.consumeDisplay_rpl : s.consumeDisplay.rpl = s.rpl := rfl
@[simp] theorem State.consumeDisplay_fault : s.consumeDisplay.fault = s.fault := rfl
@[simp] theorem State.consumeDisplay_mem : s.consumeDisplay.mem = s.mem := rfl
@[simp] theorem State.consumeDisplay_report : s.consumeDisplay.report = s.report := rfl
@[simp] theorem State.consumeDisplay_input : s.consumeDisplay.input = s.input := rfl
@[simp] theorem State.consumeDisplay_upcoming : s.consumeDisplay.upcoming = s.upcoming := rfl
@[simp] theorem State.consumeDisplay_drawn : s.consumeDisplay.drawn = s.drawn := rfl
@[simp] theorem State.consumeDisplay_tickPeriod : s.consumeDisplay.tickPeriod = s.tickPeriod := rfl

/-! ### presentNext -/

@[simp] theorem State.presentNext_v : s.presentNext.v = s.v := by
  unfold State.presentNext; split <;> rfl
@[simp] theorem State.presentNext_pc : s.presentNext.pc = s.pc := by
  unfold State.presentNext; split <;> rfl
@[simp] theorem State.presentNext_i : s.presentNext.i = s.i := by
  unfold State.presentNext; split <;> rfl
@[simp] theorem State.presentNext_stack : s.presentNext.stack = s.stack := by
  unfold State.presentNext; split <;> rfl
@[simp] theorem State.presentNext_sp : s.presentNext.sp = s.sp := by
  unfold State.presentNext; split <;> rfl
@[simp] theorem State.presentNext_dt : s.presentNext.dt = s.dt := by
  unfold State.presentNext; split <;> rfl
@[simp] theorem State.presentNext_st : s.presentNext.st = s.st := by
  unfold State.presentNext; split <;> rfl
@[simp] theorem State.presentNext_tdeadline : s.presentNext.tdeadline = s.tdeadline := by
  unfold State.presentNext; split <;> rfl
@[simp] theorem State.presentNext_disp : s.presentNext.disp = s.disp := by
  unfold State.presentNext; split <;> rfl
@[simp] theorem State.presentNext_hires : s.presentNext.hires = s.hires := by
  unfold State.presentNext; split <;> rfl
@[simp] theorem State.presentNext_dirty : s.presentNext.dirty = s.dirty := by
  unfold State.presentNext; split <;> rfl
@[simp] theorem State.presentNext_exit : s.presentNext.exit = s.exit := by
  unfold State.presentNext; split <;> rfl
@[simp] theorem State.presentNext_quirks : s.presentNext.quirks = s.quirks := by
  unfold State.presentNext; split <;> rfl
@[simp] theorem State.presentNext_rpl : s.presentNext.rpl = s.rpl := by
  unfold State.presentNext; split <;> rfl
@[simp] theorem State.presentNext_fault : s.presentNext.fault = s.fault := by
  unfold State.presentNext; split <;> rfl
@[simp] theorem State.presentNext_mem : s.presentNext.mem = s.mem := by
  unfold State.presentNext; split <;> rfl
@[simp] theorem State.presentNext_report : s.presentNext.report = s.report := by
  unfold State.presentNext; split <;> rfl
@[simp] theorem State.presentNext_tickPeriod : s.presentNext.tickPeriod = s.tickPeriod := by
  unfold State.presentNext; split <;> rfl

/-! ### The registers -/

@[simp] theorem State.reg_setReg (x r : Reg) (b : Byte) : (s.setReg x b).reg r = if r = x then b else s.reg r := by
  simp only [State.reg, State.setReg, Fin.getElem_fin, Vector.getElem_set, Fin.ext_iff, eq_comm]

@[simp] theorem State.reg_setRegFlag (x r : Reg) (b f : Byte) :
    (s.setRegFlag x b f).reg r = if r = vf then f else if r = x then b else s.reg r := by
  simp only [State.setRegFlag, State.reg_setReg]

@[simp] theorem State.reg_loadRegs (x r : Reg) (a : Nat) :
    (s.loadRegs x a).reg r = if r.val ≤ x.val then s.mem.read (a + r.val) else s.reg r := by
  simp [State.reg, State.loadRegs]

@[simp] theorem State.reg_setPc (p : Word) (r : Reg) : (s.setPc p).reg r = s.reg r := rfl
@[simp] theorem State.reg_setIndex (a : Word) (r : Reg) : (s.setIndex a).reg r = s.reg r := rfl
@[simp] theorem State.reg_skipIf (c : Bool) (r : Reg) : (s.skipIf c).reg r = s.reg r := rfl
@[simp] theorem State.reg_setDisp (d : Display) (r : Reg) : (s.setDisp d).reg r = s.reg r := rfl
@[simp] theorem reg_takeFault (c : FaultCause) (a p : Word) (r : Reg) : (takeFault c a p s).reg r = s.reg r := rfl
@[simp] theorem State.reg_timerPhase (r : Reg) : s.timerPhase.reg r = s.reg r := rfl
@[simp] theorem State.reg_beginStep (r : Reg) : s.beginStep.reg r = s.reg r := rfl
@[simp] theorem State.reg_advance (r : Reg) : s.advance.reg r = s.reg r := rfl
@[simp] theorem reg_reportWord (w : Word) (r : Reg) : (reportWord w s).reg r = s.reg r := rfl
@[simp] theorem State.reg_bumpIndex (x : Reg) (r : Reg) : (s.bumpIndex x).reg r = s.reg r := rfl
@[simp] theorem State.reg_present (inp : StepInput) (r : Reg) : (s.present inp).reg r = s.reg r := rfl
@[simp] theorem State.reg_consumeDisplay (r : Reg) : s.consumeDisplay.reg r = s.reg r := rfl

@[simp] theorem State.reg_presentNext (r : Reg) : s.presentNext.reg r = s.reg r := by
  simp only [State.reg, State.presentNext_v]

@[simp] theorem State.halted_iff : s.halted = true ↔ s.fault.cause ≠ .none := by simp [State.halted]

@[simp] theorem State.not_halted_iff : s.halted = false ↔ s.fault.cause = .none := by simp [State.halted]

end Sys2Proof.Machine
end

