-- ==== Sys2Proof/Laws/Ops.lean ====
section
/-! SUPPORT. What each shared operation can do, said once: fault entry, guarded effects, stores, the stack, the timer phase, the
fetch, the step. -/

namespace Sys2Proof.Machine

@[simp] theorem mapNext_next (f : State → State) (s : State) : mapNext f (.next s) = .next (f s) := rfl

/-- An outcome mapped to a next state was one. -/
theorem mapNext_eq_next {f : State → State} {o : Result} {t : State} (h : mapNext f o = .next t) :
    ∃ u, o = .next u ∧ t = f u := by
  cases o with
  | next u => exact ⟨u, rfl, by simpa [mapNext] using h.symm⟩
  | fault r => simp [mapNext] at h
  | refused r => simp [mapNext] at h

/-- A guarded effect takes the check's fault, or has its effect. -/
theorem guarded_cases {check : Option (FaultCause × Word)} {k : State → State} {s t : State}
    (h : guarded check k s = .next t) :
    (check = none ∧ t = k s) ∨ (∃ c a, check = some (c, a) ∧ t = takeFault c a (s.pc - 2) s) := by
  unfold guarded at h; split at h
  · rename_i c a; exact .inr ⟨c, a, rfl, by simpa [raiseFault] using h.symm⟩
  · exact .inl ⟨rfl, by simpa using h.symm⟩

theorem guarded_of_none {check : Option (FaultCause × Word)} (k : State → State) (s : State) (h : check = none) :
    guarded check k s = .next (k s) := by simp [guarded, h]

theorem guarded_of_some {check : Option (FaultCause × Word)} {c : FaultCause} {a : Word} (k : State → State) (s : State)
    (h : check = some (c, a)) : guarded check k s = .next (takeFault c a (s.pc - 2) s) := by
  simp [guarded, h, raiseFault]

/-- A guarded effect always answers a next state. -/
theorem guarded_next (check : Option (FaultCause × Word)) (k : State → State) (s : State) :
    ∃ t, guarded check k s = .next t := by
  cases check with
  | none => exact ⟨_, rfl⟩
  | some p => exact ⟨_, rfl⟩

/-- A store takes its fault and writes nothing, or writes all its bytes and goes on. -/
theorem storeBytes_cases {base : Nat} {bs : List Byte} {k : State → State} {s t : State}
    (h : storeBytes base bs k s = .next t) :
    (checkWrite base bs.length = none ∧ t = k { s with mem := s.mem.writeBytes base bs }) ∨
    (∃ c a, checkWrite base bs.length = some (c, a) ∧ t = takeFault c a (s.pc - 2) s) := guarded_cases h

theorem storeBytes_of_none {base : Nat} {bs : List Byte} (k : State → State) (s : State)
    (h : checkWrite base bs.length = none) :
    storeBytes base bs k s = .next (k { s with mem := s.mem.writeBytes base bs }) := guarded_of_none _ s h

theorem storeBytes_of_some {base : Nat} {bs : List Byte} {c : FaultCause} {a : Word} (k : State → State) (s : State)
    (h : checkWrite base bs.length = some (c, a)) :
    storeBytes base bs k s = .next (takeFault c a (s.pc - 2) s) := guarded_of_some _ s h

theorem push_of_lt (value : Word) (k : State → State) {s : State} (h : s.sp.val < 16) :
    push value k s =
      .next (k { s with stack := s.stack.set s.sp.val value, sp := ⟨s.sp.val + 1, by omega⟩ }) := dif_pos h

theorem push_of_full (value : Word) (k : State → State) {s : State} (h : s.sp = 16) :
    push value k s = .next (takeFault (.stackFault .overflow) 0 (s.pc - 2) s) := by
  unfold push; rw [dif_neg (by rw [h]; decide)]; rfl

theorem pop_of_pos (k : Word → State → State) {s : State} (h : 0 < s.sp.val) :
    pop k s = .next (k (s.stack[s.sp.val - 1]'(by omega)) { s with sp := ⟨s.sp.val - 1, by omega⟩ }) := dif_pos h

theorem pop_of_empty (k : Word → State → State) {s : State} (h : s.sp = 0) :
    pop k s = .next (takeFault (.stackFault .underflow) 0 (s.pc - 2) s) := by
  unfold pop; rw [dif_neg (by rw [h]; decide)]; rfl

/-- A push takes StackFault(Overflow) at SP = 16, or writes the next free entry and goes on. -/
theorem push_cases {value : Word} {k : State → State} {s t : State} (h : push value k s = .next t) :
    (∃ hs : s.sp.val < 16, t = k { s with stack := s.stack.set s.sp.val value, sp := ⟨s.sp.val + 1, by omega⟩ }) ∨
    (s.sp.val = 16 ∧ t = takeFault (.stackFault .overflow) 0 (s.pc - 2) s) := by
  unfold push at h; split at h
  · rename_i hs; exact .inl ⟨hs, by simpa using h.symm⟩
  · exact .inr ⟨by omega, by simpa [raiseFault] using h.symm⟩

/-- A pop takes StackFault(Underflow) at SP = 0, or gives the top entry and goes on. -/
theorem pop_cases {k : Word → State → State} {s t : State} (h : pop k s = .next t) :
    (∃ hs : 0 < s.sp.val, t = k (s.stack[s.sp.val - 1]'(by omega)) { s with sp := ⟨s.sp.val - 1, by omega⟩ }) ∨
    (s.sp.val = 0 ∧ t = takeFault (.stackFault .underflow) 0 (s.pc - 2) s) := by
  unfold pop at h; split at h
  · rename_i hs; exact .inl ⟨hs, by simpa using h.symm⟩
  · exact .inr ⟨by omega, by simpa [raiseFault] using h.symm⟩

/-- One decrement is a subtraction floored at 0. -/
theorem decFloor_toNat (b : Byte) : (decFloor b).toNat = b.toNat - 1 := by
  unfold decFloor; split
  · rename_i h; simp [h]
  · rename_i h
    have h0 : b.toNat ≠ 0 := fun hb => h (by apply BitVec.eq_of_toNat_eq; simpa using hb)
    rw [BitVec.toNat_sub_of_le (by rw [BitVec.le_def]; simp; omega)]; simp

theorem State.tickDue_iff (s : State) : s.tickDue = true ↔ s.tdeadline ≤ s.input.now := by simp [State.tickDue]

/-- The fetch gives the big-endian word at its address, or nothing above 0x0FFE. -/
theorem fetch16_eq_some {m : Memory} {addr w : Word} :
    fetch16 m addr = some w ↔ addr.toNat ≤ 0x0FFE ∧ w = m.read addr.toNat ++ m.read (addr.toNat + 1) := by
  unfold fetch16; split
  · simp; omega
  · simp only [Option.some.injEq]; constructor
    · intro h; exact ⟨by omega, h.symm⟩
    · intro h; exact h.2.symm

theorem fetch16_eq_none {m : Memory} {addr : Word} : fetch16 m addr = none ↔ 0x0FFE < addr.toNat := by
  unfold fetch16; split <;> simp <;> omega

/-- Everything a step can do: halted, the fetch's fault, an unrecognized word, or an instruction (`60_exceptions.md` R131). -/
theorem step_cases (s : State) :
    (s.fault.cause ≠ .none ∧ step s = .next (State.presentNext { s with report := none })) ∨
    (s.fault.cause = .none ∧ 0x0FFE < s.pc.toNat ∧
      step s = .next (State.presentNext (takeFault (.memoryFault .fetch) s.pc s.pc s.beginStep))) ∨
    (∃ w e, s.fault.cause = .none ∧ fetch16 s.mem s.pc = some w ∧ decodeWord w = .error e ∧
      step s = .next (State.presentNext (reportWord w s.beginStep.advance))) ∨
    (∃ w i, s.fault.cause = .none ∧ fetch16 s.mem s.pc = some w ∧ decodeWord w = .ok i ∧
      step s = mapNext State.presentNext (exec i s.beginStep.advance)) := by
  by_cases hh : s.fault.cause = .none
  · have hh' : s.halted = false := (State.not_halted_iff s).2 hh
    cases hf : fetch16 s.mem s.pc with
    | none => exact .inr (.inl ⟨hh, fetch16_eq_none.1 hf, by simp [step, hh', hf]⟩)
    | some w =>
      cases hd : decodeWord w with
      | error e => exact .inr (.inr (.inl ⟨w, e, hh, rfl, hd, by simp [step, hh', hf, hd]⟩))
      | ok i => exact .inr (.inr (.inr ⟨w, i, hh, rfl, hd, by simp [step, hh', hf, hd]⟩))
  · exact .inl ⟨hh, by simp [step, (State.halted_iff s).2 hh]⟩

end Sys2Proof.Machine
end

