-- ==== Sys2Proof/Laws/Screen.lean ====
section
/-! SUPPORT. The display operations cell by cell. -/

namespace Sys2Proof.Machine

theorem Display.cell_of_lt (d : Display) (x : Nat) {y : Nat} (h : y < 64) : d.cell x y = d[y].getLsbD x := by
  simp [Display.cell, h]

/-- A cell outside the buffer reads 0. -/
theorem Display.cell_outside (d : Display) {x y : Nat} (h : 128 ≤ x ∨ 64 ≤ y) : d.cell x y = false := by
  unfold Display.cell; split
  · rename_i hy; exact BitVec.getLsbD_of_ge _ _ (by omega)
  · rfl

/-- Flipping a cell of the buffer changes that cell alone. -/
theorem Display.cell_flip (d : Display) {x y : Nat} (hx : x < 128) (hy : y < 64) (px py : Nat) :
    (d.flip x y).cell px py = (d.cell px py != (decide (px = x) && decide (py = y))) := by
  unfold Display.flip Display.cell
  simp only [hy, dite_true]
  by_cases hp : py < 64
  · simp only [hp, dite_true, Vector.getElem_set]
    by_cases he : y = py
    · subst he
      simp only [if_true, BitVec.getLsbD_xor, BitVec.getLsbD_twoPow, decide_true, Bool.and_true, hx]
      by_cases h1 : px = x
      · subst h1; simp
      · simp [h1, Ne.symm h1]
    · simp [he, Ne.symm he]
  · have : py ≠ y := by omega
    simp [hp, this]

theorem Display.cell_blank (x y : Nat) : Display.blank.cell x y = false := by
  unfold Display.cell Display.blank; split <;> simp

theorem Display.cell_scrollDown (d : Display) (a : Nat) {y : Nat} (x : Nat) (hy : y < 64) :
    (d.scrollDown a).cell x y = if a ≤ y then d.cell x (y - a) else false := by
  unfold Display.cell Display.scrollDown
  have : y - a < 64 := by omega
  simp only [hy, dite_true, Vector.getElem_ofFn, this]
  split <;> simp

theorem Display.cell_scrollRight (d : Display) (a : Nat) {x y : Nat} (hx : x < 128) (hy : y < 64) :
    (d.scrollRight a).cell x y = if a ≤ x then d.cell (x - a) y else false := by
  unfold Display.cell Display.scrollRight
  simp only [hy, dite_true, Vector.getElem_ofFn, BitVec.getLsbD_shiftLeft, hx, decide_true, Bool.true_and]
  by_cases h : a ≤ x
  · simp [h]
  · simp [h]

theorem Display.cell_scrollLeft (d : Display) (a : Nat) (x : Nat) {y : Nat} (hy : y < 64) :
    (d.scrollLeft a).cell x y = if x + a ≤ 127 then d.cell (x + a) y else false := by
  unfold Display.cell Display.scrollLeft
  simp only [hy, dite_true, Vector.getElem_ofFn, BitVec.getLsbD_ushiftRight]
  split
  · rw [Nat.add_comm]; simp
  · exact BitVec.getLsbD_of_ge _ _ (by omega)

theorem mem_pixelCells {hires : Bool} {lx ly px py : Nat} :
    (px, py) ∈ pixelCells hires lx ly ↔
      (if hires then px else px / 2) = lx ∧ (if hires then py else py / 2) = ly := by
  cases hires
  · simp only [pixelCells, Bool.false_eq_true, if_false, List.mem_cons, Prod.mk.injEq, List.not_mem_nil, or_false]
    omega
  · simp [pixelCells]

theorem mem_rowCells {hires : Bool} {x0 ly px py : Nat} {b : Byte} :
    (px, py) ∈ rowCells hires x0 ly b ↔
      x0 ≤ (if hires then px else px / 2) ∧ (if hires then px else px / 2) < x0 + 8 ∧
      (if hires then px else px / 2) < logicalWidth hires ∧ (if hires then py else py / 2) = ly ∧
      b.getLsbD (7 - ((if hires then px else px / 2) - x0)) = true := by
  generalize hlx : (if hires then px else px / 2) = lx
  simp only [rowCells, List.mem_flatMap, List.mem_range]
  constructor
  · rintro ⟨c, hc, hm⟩
    split at hm
    · rename_i h
      rw [mem_pixelCells, hlx] at hm
      obtain ⟨h1, h2⟩ := hm
      subst h1
      refine ⟨by omega, by omega, h.1, h2, ?_⟩
      rw [Nat.add_sub_cancel_left]; exact h.2
    · simp at hm
  · rintro ⟨h1, h2, h3, h4, h5⟩
    refine ⟨lx - x0, by omega, ?_⟩
    rw [if_pos ⟨by omega, h5⟩, mem_pixelCells, hlx]
    exact ⟨by omega, h4⟩

/-- The cells of a sprite: the logical pixel lies in its box, on the screen, under a set bit. -/
theorem mem_spriteCells {hires : Bool} {x0 px py : Nat} : ∀ {ly : Nat} {rows : List Byte},
    (px, py) ∈ spriteCells hires x0 ly rows ↔
      (ly ≤ (if hires then py else py / 2) ∧ (if hires then py else py / 2) < logicalHeight hires ∧
      x0 ≤ (if hires then px else px / 2) ∧ (if hires then px else px / 2) < x0 + 8 ∧
      (if hires then px else px / 2) < logicalWidth hires ∧
      ∃ h : (if hires then py else py / 2) - ly < rows.length,
        (rows[(if hires then py else py / 2) - ly]).getLsbD (7 - ((if hires then px else px / 2) - x0)) = true) := by
  generalize hlx : (if hires then px else px / 2) = lx
  generalize hly : (if hires then py else py / 2) = my
  intro ly rows
  induction rows generalizing ly with
  | nil => simp [spriteCells]
  | cons b bs ih =>
    rw [spriteCells, List.mem_append, ih]
    constructor
    · rintro (h | ⟨h1, h2, h3, h4, h5, h6, h7⟩)
      · split at h
        · rw [mem_rowCells, hlx, hly] at h
          obtain ⟨h1, h2, h3, h4, h5⟩ := h
          subst h4
          refine ⟨le_rfl, ‹_›, h1, h2, h3, by simp, ?_⟩
          simpa using h5
        · simp at h
      · refine ⟨by omega, h2, h3, h4, h5, by simp only [List.length_cons]; omega, ?_⟩
        have : my - ly = (my - (ly + 1)) + 1 := by omega
        simp only [this, List.getElem_cons_succ]; exact h7
    · rintro ⟨h1, h2, h3, h4, h5, h6, h7⟩
      by_cases he : my = ly
      · left
        subst he
        rw [if_pos h2, mem_rowCells, hlx, hly]
        refine ⟨h3, h4, h5, rfl, ?_⟩
        simpa using h7
      · right
        simp only [List.length_cons] at h6
        refine ⟨by omega, h2, h3, h4, h5, by omega, ?_⟩
        have : my - ly = (my - (ly + 1)) + 1 := by omega
        simp only [this, List.getElem_cons_succ] at h7; exact h7

/-- No cell is visited twice in one draw. -/
theorem nodup_pixelCells (hires : Bool) (lx ly : Nat) : (pixelCells hires lx ly).Nodup := by
  cases hires <;> simp [pixelCells] 

theorem nodup_rowCells (hires : Bool) (x0 ly : Nat) (b : Byte) : (rowCells hires x0 ly b).Nodup := by
  rw [rowCells, List.nodup_flatMap]
  refine ⟨fun c _ => ?_, ?_⟩
  · split
    · exact nodup_pixelCells ..
    · exact List.nodup_nil
  · refine (List.pairwise_lt_range (n := 8)).imp fun {c c'} hlt => ?_
    intro p h1 h2
    obtain ⟨px, py⟩ := p
    dsimp only at h1 h2
    split at h1 <;> [skip; simp at h1]
    split at h2 <;> [skip; simp at h2]
    rw [mem_pixelCells] at h1 h2
    omega

/-- No cell is visited twice in one draw, so the order of the cells does not matter (`44_display.md` R103). -/
theorem nodup_spriteCells (hires : Bool) (x0 : Nat) : ∀ (ly : Nat) (rows : List Byte),
    (spriteCells hires x0 ly rows).Nodup
  | _, [] => List.nodup_nil
  | ly, b :: bs => by
    rw [spriteCells, List.nodup_append']
    refine ⟨?_, nodup_spriteCells hires x0 (ly + 1) bs, ?_⟩
    · split
      · exact nodup_rowCells ..
      · exact List.nodup_nil
    · rintro ⟨px, py⟩ h1 h2
      split at h1 <;> [skip; simp at h1]
      rw [mem_rowCells] at h1
      rw [mem_spriteCells] at h2
      omega

/-- Drawing flips exactly the listed cells, each once. -/
theorem cell_foldl_xorCell (cells : List (Nat × Nat)) (hn : cells.Nodup) (hin : ∀ c ∈ cells, c.1 < 128 ∧ c.2 < 64)
    (d : Display) (coll : Bool) (px py : Nat) :
    (cells.foldl Display.xorCell (d, coll)).1.cell px py = (d.cell px py != decide ((px, py) ∈ cells)) := by
  induction cells generalizing d coll with
  | nil => simp
  | cons c cs ih =>
    obtain ⟨hc, hcs⟩ := List.nodup_cons.1 hn
    have hb := hin c (by simp)
    rw [List.foldl_cons, Display.xorCell, ih hcs (fun e he => hin e (by simp [he])), Display.cell_flip d hb.1 hb.2]
    by_cases h1 : (px, py) = c
    · subst h1; simp [hc]
    · have h2 : ¬ (px = c.1 ∧ py = c.2) := fun h => h1 (Prod.ext h.1 h.2)
      have h3 : (decide (px = c.1) && decide (py = c.2)) = false := by simpa using h2
      simp [h1, h3]

/-- A draw collides exactly when one of its cells was lit. -/
theorem collided_foldl_xorCell (cells : List (Nat × Nat)) (hn : cells.Nodup)
    (hin : ∀ c ∈ cells, c.1 < 128 ∧ c.2 < 64) (d : Display) (coll : Bool) :
    (cells.foldl Display.xorCell (d, coll)).2 = true ↔ coll = true ∨ ∃ c ∈ cells, d.cell c.1 c.2 = true := by
  induction cells generalizing d coll with
  | nil => simp
  | cons c cs ih =>
    obtain ⟨hc, hcs⟩ := List.nodup_cons.1 hn
    have hb := hin c (by simp)
    have hrest : ∀ e ∈ cs, (d.flip c.1 c.2).cell e.1 e.2 = d.cell e.1 e.2 := by
      intro e he
      rw [Display.cell_flip d hb.1 hb.2]
      have : ¬ (e.1 = c.1 ∧ e.2 = c.2) := fun h => hc (by rw [← Prod.ext h.1 h.2]; exact he)
      have h3 : (decide (e.1 = c.1) && decide (e.2 = c.2)) = false := by simpa using this
      simp [h3]
    rw [List.foldl_cons, Display.xorCell, ih hcs (fun e he => hin e (by simp [he]))]
    simp only [Bool.or_eq_true, List.mem_cons, exists_eq_or_imp]
    constructor
    · rintro ((h | h) | ⟨e, he, h⟩)
      · exact .inl h
      · exact .inr (.inl h)
      · exact .inr (.inr ⟨e, he, by rw [← hrest e he]; exact h⟩)
    · rintro (h | h | ⟨e, he, h⟩)
      · exact .inl (.inl h)
      · exact .inl (.inr h)
      · exact .inr ⟨e, he, by rw [hrest e he]; exact h⟩

/-- Every cell of a sprite lies in the buffer. -/
theorem spriteCells_inside {hires : Bool} {x0 ly : Nat} {rows : List Byte} {c : Nat × Nat}
    (h : c ∈ spriteCells hires x0 ly rows) : c.1 < 128 ∧ c.2 < 64 := by
  obtain ⟨px, py⟩ := c
  rw [mem_spriteCells] at h
  obtain ⟨-, h2, -, -, h5, -⟩ := h
  cases hires <;> simp [logicalWidth, logicalHeight] at h2 h5 ⊢ <;> omega

end Sys2Proof.Machine
end

