-- ==== Sys2Proof/Laws/Operands.lean ====
section
/-! SUPPORT. The operand forms and the flag computations as numbers. -/

namespace Sys2Proof.Machine

theorem zextAddr_toNat (nnn : Addr12) : (zextAddr nnn).toNat = nnn.toNat := by
  unfold zextAddr; rw [BitVec.toNat_setWidth]; have := nnn.isLt; omega

theorem zextByte_toNat (b : Byte) : (zextByte b).toNat = b.toNat := by
  unfold zextByte; rw [BitVec.toNat_setWidth]; have := b.isLt; omega

theorem jumpReg_val (nnn : Addr12) : (jumpReg nnn).val = nnn.toNat / 256 := by
  have := nnn.isLt
  simp only [jumpReg, BitVec.extractLsb', BitVec.ofNat, Fin.Internal.ofNat_eq_ofNat, Fin.val_ofNat,
    Nat.shiftRight_eq_div_pow]
  omega

/-- BNNN's target is an exact sum: it never wraps (`10_state.md` R16). -/
theorem jumpTarget_toNat (b : Byte) (nnn : Addr12) : (zextByte b + zextAddr nnn).toNat = b.toNat + nnn.toNat := by
  have h1 := b.isLt
  have h2 := nnn.isLt
  rw [BitVec.toNat_add, zextByte_toNat, zextAddr_toNat]; omega

theorem State.shiftOperand_eq (s : State) (x y : Reg) :
    s.shiftOperand x y = if s.quirks.shift then s.reg y else s.reg x := by
  unfold State.shiftOperand; split <;> rfl

theorem State.jumpBase_eq (s : State) (nnn : Addr12) :
    s.jumpBase nnn = if s.quirks.jump then s.reg 0 else s.reg (jumpReg nnn) := by
  unfold State.jumpBase; split <;> rfl

theorem State.regsUpTo_length (s : State) (x : Reg) : (s.regsUpTo x).length = x.val + 1 := by
  simp [State.regsUpTo]

theorem State.regsUpTo_getElem (s : State) (x r : Reg) (h : r.val < (s.regsUpTo x).length) :
    (s.regsUpTo x)[r.val] = s.reg r := by
  simp [State.regsUpTo, State.reg]

theorem State.bumpIndex_toNat (s : State) (x : Reg) :
    (s.bumpIndex x).i.toNat = if s.quirks.index then (s.i.toNat + x.val + 1) % 0x1000 else s.i.toNat := by
  rw [State.bumpIndex_i]; split
  · rw [BitVec.toNat_ofNat]; omega
  · rfl

theorem smallGlyph_toNat (v : Byte) : (smallGlyph v).toNat = 0x050 + v.toNat * 5 := by
  have := v.isLt
  unfold smallGlyph; rw [BitVec.toNat_ofNat]; simp only [fontBase]; omega

theorem largeGlyph_toNat {n : Nat} (h : n < 256) : (largeGlyph n).toNat = 0x0A0 + n * 10 := by
  unfold largeGlyph; rw [BitVec.toNat_ofNat]; simp only [largeFontBase]; omega

/-- FX29 with the large path: small glyphs below 0x10, large ones from it. -/
theorem fontAddress_large_toNat (v : Byte) :
    (fontAddress true v).toNat = if v.toNat < 0x10 then 0x050 + v.toNat * 5 else 0x0A0 + (v.toNat - 0x10) * 10 := by
  have := v.isLt
  by_cases h : v.toNat < 0x10
  · rw [if_pos h, fontAddress, if_pos (Or.inl h), smallGlyph_toNat]
  · rw [if_neg h, fontAddress, if_neg (by simp; omega), largeGlyph_toNat (by omega)]

/-- FX29 without the large path: the small formula for every value. -/
theorem fontAddress_small_toNat (v : Byte) : (fontAddress false v).toNat = 0x050 + v.toNat * 5 := by
  rw [fontAddress, if_pos (Or.inr rfl), smallGlyph_toNat]

theorem bcdDigits_length (b : Byte) : (bcdDigits b).length = 3 := rfl

theorem bcdDigits_toNat (b : Byte) :
    (bcdDigits b).map BitVec.toNat = [b.toNat / 100, b.toNat / 10 % 10, b.toNat % 10] := by
  have := b.isLt
  simp only [bcdDigits, List.map_cons, List.map_nil, BitVec.toNat_ofNat, List.cons.injEq, and_true]
  omega

/-- A key is down when bit 4 is set. -/
theorem keyDown_iff (k : Byte) : keyDown k = true ↔ k.toNat / 16 % 2 = 1 := by
  revert k; decide

/-- The key that is down is the low nibble, and the comparison is on all 8 bits. -/
theorem keyIsDown_iff (v k : Byte) : keyIsDown v k = true ↔ k.toNat / 16 % 2 = 1 ∧ v.toNat = k.toNat % 16 := by
  have hk : ((keyCode k).setWidth 8 : Byte).toNat = k.toNat % 16 := by revert k; decide
  simp only [keyIsDown, Bool.and_eq_true, keyDown_iff, decide_eq_true_eq, ← BitVec.toNat_inj, hk]

theorem flagByte_zero_or_one (b : Bool) : flagByte b = 0 ∨ flagByte b = 1 := by cases b <;> simp [flagByte]

theorem shiftedOutLow_toNat (a : Byte) : (shiftedOutLow a).toNat = a.toNat % 2 := by revert a; decide

theorem shiftedOutHigh_toNat (a : Byte) : (shiftedOutHigh a).toNat = a.toNat / 128 := by revert a; decide

theorem indexFlag_writeBoth (sum : Nat) (old : Byte) :
    indexFlag .writeBoth sum old = if 0x0FFF < sum then 1 else 0 := rfl

theorem indexFlag_setOnly (sum : Nat) (old : Byte) :
    indexFlag .setOnly sum old = if 0x0FFF < sum then 1 else old := rfl

theorem State.sprite_length (s : State) (n : Count) : (s.sprite n).length = n.val := Memory.readBytes_length ..

/-- The cells of DXYN's sprite in a state, in the terms of the state. -/
theorem mem_sprite {s : State} {x y : Reg} {n : Count} {px py : Nat} :
    (px, py) ∈ spriteCells s.hires (s.drawColumn x) (s.drawRow y) (s.sprite n) ↔
      (s.drawRow y ≤ (if s.hires then py else py / 2) ∧ (if s.hires then py else py / 2) < s.drawRow y + n.val ∧
      (if s.hires then py else py / 2) < logicalHeight s.hires ∧
      s.drawColumn x ≤ (if s.hires then px else px / 2) ∧ (if s.hires then px else px / 2) < s.drawColumn x + 8 ∧
      (if s.hires then px else px / 2) < logicalWidth s.hires ∧
      (s.mem.read (s.base + ((if s.hires then py else py / 2) - s.drawRow y))).getLsbD
        (7 - ((if s.hires then px else px / 2) - s.drawColumn x)) = true) := by
  rw [mem_spriteCells]
  generalize (if s.hires then py else py / 2) = ly
  generalize (if s.hires then px else px / 2) = lx
  simp only [State.sprite, Memory.readBytes_getElem, Memory.readBytes_length]
  constructor
  · rintro ⟨h1, h2, h3, h4, h5, h6, h7⟩; exact ⟨h1, by omega, h2, h3, h4, h5, h7⟩
  · rintro ⟨h1, h2, h3, h4, h5, h6, h7⟩; exact ⟨h1, h3, h4, h5, h6, by omega, h7⟩

end Sys2Proof.Machine
end

