-- ==== Sys2Proof/Laws/Exec.lean ====
section
/-! SUPPORT. The instructions that can take a fault: when each completes, with what state, and when it takes its fault. Every
other instruction's `exec` is one `.next` by definition. -/

namespace Sys2Proof.Machine

theorem exec_call_of_lt (nnn : Addr12) {s : State} (h : s.sp.val < 16) :
    exec (.call nnn) s = .next (State.setPc
      { s with stack := s.stack.set s.sp.val s.pc, sp := ⟨s.sp.val + 1, by omega⟩ } (zextAddr nnn)) :=
  push_of_lt s.pc (fun s => s.setPc (zextAddr nnn)) h

theorem exec_call_of_full (nnn : Addr12) {s : State} (h : s.sp = 16) :
    exec (.call nnn) s = .next (takeFault (.stackFault .overflow) 0 (s.pc - 2) s) :=
  push_of_full s.pc (fun s => s.setPc (zextAddr nnn)) h

theorem exec_ret_of_pos {s : State} (h : 0 < s.sp.val) :
    exec .ret s = .next (State.setPc { s with sp := ⟨s.sp.val - 1, by omega⟩ } (s.stack[s.sp.val - 1]'(by omega))) :=
  pop_of_pos (fun target s => s.setPc target) h

theorem exec_ret_of_empty {s : State} (h : s.sp = 0) :
    exec .ret s = .next (takeFault (.stackFault .underflow) 0 (s.pc - 2) s) :=
  pop_of_empty (fun target s => s.setPc target) h

theorem exec_bcd_of_none (x : Reg) (s : State) (h : checkWrite s.base 3 = none) :
    exec (.bcd x) s = .next { s with mem := s.mem.writeBytes s.base (bcdDigits (s.reg x)) } :=
  storeBytes_of_none (fun s => s) s h

theorem exec_bcd_of_some (x : Reg) (s : State) {c : FaultCause} {a : Word} (h : checkWrite s.base 3 = some (c, a)) :
    exec (.bcd x) s = .next (takeFault c a (s.pc - 2) s) :=
  storeBytes_of_some (bs := bcdDigits (s.reg x)) (fun s => s) s h

theorem exec_stm_of_none (x : Reg) (s : State) (h : checkWrite s.base (x.val + 1) = none) :
    exec (.stm x) s =
      .next (State.bumpIndex { s with mem := s.mem.writeBytes s.base (s.regsUpTo x) } x) :=
  storeBytes_of_none (fun s => s.bumpIndex x) s (by rw [State.regsUpTo_length]; exact h)

theorem exec_stm_of_some (x : Reg) (s : State) {c : FaultCause} {a : Word}
    (h : checkWrite s.base (x.val + 1) = some (c, a)) :
    exec (.stm x) s = .next (takeFault c a (s.pc - 2) s) :=
  storeBytes_of_some (fun s => s.bumpIndex x) s (by rw [State.regsUpTo_length]; exact h)

theorem exec_ldm_of_none (x : Reg) (s : State) (h : checkRead s.base (x.val + 1) = none) :
    exec (.ldm x) s = .next ((s.loadRegs x s.base).bumpIndex x) :=
  guarded_of_none (fun s => (s.loadRegs x s.base).bumpIndex x) s h

theorem exec_ldm_of_some (x : Reg) (s : State) {c : FaultCause} {a : Word}
    (h : checkRead s.base (x.val + 1) = some (c, a)) : exec (.ldm x) s = .next (takeFault c a (s.pc - 2) s) :=
  guarded_of_some (fun s => (s.loadRegs x s.base).bumpIndex x) s h

/-- What DXYN draws: the buffer and whether it collided. -/
abbrev State.drawing (s : State) (x y : Reg) (n : Count) : Display × Bool :=
  Display.draw s.disp s.hires (s.drawColumn x) (s.drawRow y) (s.sprite n)

theorem exec_drw_of_none (x y : Reg) (n : Count) (s : State) (h : checkRead s.base n.val = none) :
    exec (.drw x y n) s =
      .next ((s.setDisp (s.drawing x y n).1).setReg vf (collisionFlag (s.drawing x y n).2)) :=
  guarded_of_none (fun s => (s.setDisp (s.drawing x y n).1).setReg vf (collisionFlag (s.drawing x y n).2)) s h

theorem exec_drw_of_some (x y : Reg) (n : Count) (s : State) {c : FaultCause} {a : Word}
    (h : checkRead s.base n.val = some (c, a)) : exec (.drw x y n) s = .next (takeFault c a (s.pc - 2) s) :=
  guarded_of_some (fun s => (s.setDisp (s.drawing x y n).1).setReg vf (collisionFlag (s.drawing x y n).2)) s h

theorem checkRead_eq_some {base n : Nat} (h0 : 0 < n) (h : 0x1000 < base + n) :
    checkRead base n = some (.memoryFault .dataRead, 0x1000) := by
  unfold checkRead; rw [if_pos (outOfMemory_iff.2 ⟨h0, h⟩)]

theorem checkRead_cause {base n : Nat} {c : FaultCause} {a : Word} (h : checkRead base n = some (c, a)) : c ≠ .none := by
  revert h; unfold checkRead; split <;> rintro ⟨⟩; simp

theorem checkWrite_cause {base n : Nat} {c : FaultCause} {a : Word} (h : checkWrite base n = some (c, a)) : c ≠ .none := by
  rcases checkWrite_eq_some h with ⟨_, rfl, _⟩ | ⟨_, _, _, rfl, _⟩ <;> simp

/-- An instruction takes a fault, which changes FAULT, PC and the report only, or completes without touching FAULT. -/
theorem exec_cases {i : Instr} {s t : State} (h : exec i s = .next t) :
    (∃ c a, c ≠ .none ∧ t = takeFault c a (s.pc - 2) s) ∨ (t.fault = s.fault ∧ t.report = s.report) := by
  cases i with
  | call nnn =>
    rcases push_cases (value := s.pc) (k := fun s => s.setPc (zextAddr nnn)) h with ⟨_, rfl⟩ | ⟨_, rfl⟩
    · exact .inr ⟨rfl, rfl⟩
    · exact .inl ⟨_, _, by simp, rfl⟩
  | ret =>
    rcases pop_cases (k := fun target s => s.setPc target) h with ⟨_, rfl⟩ | ⟨_, rfl⟩
    · exact .inr ⟨rfl, rfl⟩
    · exact .inl ⟨_, _, by simp, rfl⟩
  | bcd x =>
    cases hc : checkWrite s.base 3 with
    | none => rw [exec_bcd_of_none x s hc] at h; cases h; exact .inr ⟨rfl, rfl⟩
    | some p => rw [exec_bcd_of_some x s hc] at h; cases h; exact .inl ⟨_, _, checkWrite_cause hc, rfl⟩
  | stm x =>
    cases hc : checkWrite s.base (x.val + 1) with
    | none => rw [exec_stm_of_none x s hc] at h; cases h; exact .inr ⟨rfl, rfl⟩
    | some p => rw [exec_stm_of_some x s hc] at h; cases h; exact .inl ⟨_, _, checkWrite_cause hc, rfl⟩
  | ldm x =>
    cases hc : checkRead s.base (x.val + 1) with
    | none => rw [exec_ldm_of_none x s hc] at h; cases h; exact .inr ⟨rfl, rfl⟩
    | some p => rw [exec_ldm_of_some x s hc] at h; cases h; exact .inl ⟨_, _, checkRead_cause hc, rfl⟩
  | drw x y n =>
    cases hc : checkRead s.base n.val with
    | none => rw [exec_drw_of_none x y n s hc] at h; cases h; exact .inr ⟨rfl, rfl⟩
    | some p => rw [exec_drw_of_some x y n s hc] at h; cases h; exact .inl ⟨_, _, checkRead_cause hc, rfl⟩
  | waitk x =>
    simp only [exec, execWaitk, Host.Outcome.next.injEq] at h
    subst h; split <;> exact .inr ⟨rfl, rfl⟩
  | scd n =>
    simp only [exec, execScd, Host.Outcome.next.injEq] at h
    subst h; exact .inr (by simp)
  | scr =>
    simp only [exec, execScr, Host.Outcome.next.injEq] at h
    subst h; exact .inr (by simp)
  | scl =>
    simp only [exec, execScl, Host.Outcome.next.injEq] at h
    subst h; exact .inr (by simp)
  | ldrpl x =>
    simp only [exec, execLdrpl, Host.Outcome.next.injEq] at h
    subst h; exact .inr (by simp)
  | _ => cases h; exact .inr ⟨rfl, rfl⟩

/-- Every instruction answers a next state in every state. -/
theorem exec_next (i : Instr) (s : State) : ∃ t, exec i s = .next t := by
  cases i with
  | call nnn =>
    by_cases h : s.sp.val < 16
    · exact ⟨_, exec_call_of_lt nnn h⟩
    · exact ⟨_, exec_call_of_full nnn (Fin.ext (by omega))⟩
  | ret =>
    by_cases h : 0 < s.sp.val
    · exact ⟨_, exec_ret_of_pos h⟩
    · exact ⟨_, exec_ret_of_empty (Fin.ext (by omega))⟩
  | bcd x =>
    cases hc : checkWrite s.base 3 with
    | none => exact ⟨_, exec_bcd_of_none x s hc⟩
    | some p => exact ⟨_, exec_bcd_of_some x s hc⟩
  | stm x =>
    cases hc : checkWrite s.base (x.val + 1) with
    | none => exact ⟨_, exec_stm_of_none x s hc⟩
    | some p => exact ⟨_, exec_stm_of_some x s hc⟩
  | ldm x =>
    cases hc : checkRead s.base (x.val + 1) with
    | none => exact ⟨_, exec_ldm_of_none x s hc⟩
    | some p => exact ⟨_, exec_ldm_of_some x s hc⟩
  | drw x y n =>
    cases hc : checkRead s.base n.val with
    | none => exact ⟨_, exec_drw_of_none x y n s hc⟩
    | some p => exact ⟨_, exec_drw_of_some x y n s hc⟩
  | _ => exact ⟨_, rfl⟩

end Sys2Proof.Machine
end

