-- ==== Sys2Proof/Laws/Frame.lean ====
section
/-! SUPPORT. Frames compose: `Kept` and `KeptExcept` are reflexive and transitive; the frames of the steps' shared parts. -/

namespace Sys2Proof.Machine

theorem Kept.refl (s : State) (p : Part) : Kept s s p := by cases p <;> simp [Kept]

theorem Kept.trans {s t u : State} {p : Part} (h : Kept s t p) (h' : Kept t u p) : Kept s u p := by
  cases p <;> simp_all [Kept]

theorem KeptExcept.mono {ps qs : List Part} {s t : State} (h : KeptExcept ps s t) (hq : ∀ p ∈ ps, p ∈ qs) :
    KeptExcept qs s t := fun p hp => h p fun hh => hp (hq p hh)

theorem KeptExcept.trans {ps qs : List Part} {s t u : State} (h : KeptExcept ps s t) (h' : KeptExcept qs t u) :
    KeptExcept (ps ++ qs) s u := fun p hp =>
  Kept.trans (h p fun hh => hp (List.mem_append_left _ hh)) (h' p fun hh => hp (List.mem_append_right _ hh))

/-- What a step does before the fetch keeps all but the report and the timers. -/
theorem beginStep_kept (s : State) : KeptExcept (.report :: timerParts) s s.beginStep := by
  intro p hp
  cases p <;> first | (exfalso; simp at hp; done) | rfl | (intro _; rfl) | (intro _ _; rfl)

/-- Fault entry keeps all but PC, FAULT and the report (`60_exceptions.md` R128). -/
theorem takeFault_kept (c : FaultCause) (a pc0 : Word) (s : State) :
    KeptExcept [.pc, .fault, .report] s (takeFault c a pc0 s) := by
  intro p hp
  cases p <;> first | (exfalso; simp at hp; done) | rfl | (intro _; rfl) | (intro _ _; rfl)

/-- A state whose timers are those of `beginStep` is ticked. -/
theorem ticked_of_beginStep {s t : State} (h1 : t.dt = s.beginStep.dt) (h2 : t.st = s.beginStep.st)
    (h3 : t.tdeadline = s.beginStep.tdeadline) : Ticked s t := by
  simp only [State.beginStep, State.timerPhase, State.tickDue, decide_eq_true_eq] at h1 h2 h3
  constructor
  · intro h; rw [h1, h2, h3]; simp [h, decFloor_toNat]
  · intro h
    have hn : ¬ s.tdeadline ≤ s.input.now := Nat.not_le.2 h
    rw [h1, h2, h3]; simp [hn]

/-- FX65, FX85 write the register file element by element. -/
theorem State.reg_ofFn (s : State) (f : Fin 16 → Byte) (r : Reg) : State.reg { s with v := Vector.ofFn f } r = f r := by
  unfold State.reg; exact Vector.getElem_ofFn ..

end Sys2Proof.Machine
end

