-- ==== Sys2Proof/Laws/PerInstr.lean ====
section
/-! SUPPORT. The per-instruction family `TableRow`: the encoding of an instruction is selected by a row of the opcode table, which
reads the instruction back from it. -/

/-- A row of the opcode table selects the word of `i` and builds `i` from it (`30_encoding.md` R56, R57). -/
def Sys2Proof.Laws.TableRow.Statement (i : Sys2Proof.Instr) : Prop :=
  ∃ r ∈ Sys2Proof.opcodeTable, r.selects (Sys2Proof.encode i) = true ∧ r.build (Sys2Proof.encode i) = i

namespace Sys2Proof.Laws.TableRow

open Sys2Proof

theorem scd (n : Count) : Statement (.scd n) :=
  ⟨opcodeTable[0], List.getElem_mem (l := opcodeTable) (n := 0) (by decide), OpcodeRow.selects_of (formatZN_and _ n),
    congrArg Instr.scd (fieldN_formatZN _ n)⟩

theorem cls : Statement .cls :=
  ⟨opcodeTable[1], List.getElem_mem (l := opcodeTable) (n := 1) (by decide), OpcodeRow.selects_of rfl,
    rfl⟩

theorem ret : Statement .ret :=
  ⟨opcodeTable[7], List.getElem_mem (l := opcodeTable) (n := 7) (by decide), OpcodeRow.selects_of rfl,
    rfl⟩

theorem scr : Statement .scr :=
  ⟨opcodeTable[2], List.getElem_mem (l := opcodeTable) (n := 2) (by decide), OpcodeRow.selects_of rfl,
    rfl⟩

theorem scl : Statement .scl :=
  ⟨opcodeTable[3], List.getElem_mem (l := opcodeTable) (n := 3) (by decide), OpcodeRow.selects_of rfl,
    rfl⟩

theorem exit : Statement .exit :=
  ⟨opcodeTable[42], List.getElem_mem (l := opcodeTable) (n := 42) (by decide), OpcodeRow.selects_of rfl,
    rfl⟩

theorem lores : Statement .lores :=
  ⟨opcodeTable[4], List.getElem_mem (l := opcodeTable) (n := 4) (by decide), OpcodeRow.selects_of rfl,
    rfl⟩

theorem hires : Statement .hires :=
  ⟨opcodeTable[5], List.getElem_mem (l := opcodeTable) (n := 5) (by decide), OpcodeRow.selects_of rfl,
    rfl⟩

theorem jp (nnn : Addr12) : Statement (.jp nnn) :=
  ⟨opcodeTable[8], List.getElem_mem (l := opcodeTable) (n := 8) (by decide), OpcodeRow.selects_of (formatNNN_and _ nnn),
    congrArg Instr.jp (fieldNNN_formatNNN _ nnn)⟩

theorem call (nnn : Addr12) : Statement (.call nnn) :=
  ⟨opcodeTable[9], List.getElem_mem (l := opcodeTable) (n := 9) (by decide), OpcodeRow.selects_of (formatNNN_and _ nnn),
    congrArg Instr.call (fieldNNN_formatNNN _ nnn)⟩

theorem sei (x : Reg) (nn : Byte) : Statement (.sei x nn) :=
  ⟨opcodeTable[10], List.getElem_mem (l := opcodeTable) (n := 10) (by decide), OpcodeRow.selects_of (formatXNN_op _ x nn),
    congrArg₂ Instr.sei (fieldX_formatXNN _ x nn) (fieldNN_formatXNN _ x nn)⟩

theorem snei (x : Reg) (nn : Byte) : Statement (.snei x nn) :=
  ⟨opcodeTable[11], List.getElem_mem (l := opcodeTable) (n := 11) (by decide), OpcodeRow.selects_of (formatXNN_op _ x nn),
    congrArg₂ Instr.snei (fieldX_formatXNN _ x nn) (fieldNN_formatXNN _ x nn)⟩

theorem ser (x : Reg) (y : Reg) : Statement (.ser x y) :=
  ⟨opcodeTable[12], List.getElem_mem (l := opcodeTable) (n := 12) (by decide), OpcodeRow.selects_of (formatXYN_and _ x y _ 0xF),
    congrArg₂ Instr.ser (fieldX_formatXYN _ x y _) (fieldY_formatXYN _ x y _)⟩

theorem ldi (x : Reg) (nn : Byte) : Statement (.ldi x nn) :=
  ⟨opcodeTable[15], List.getElem_mem (l := opcodeTable) (n := 15) (by decide), OpcodeRow.selects_of (formatXNN_op _ x nn),
    congrArg₂ Instr.ldi (fieldX_formatXNN _ x nn) (fieldNN_formatXNN _ x nn)⟩

theorem addi (x : Reg) (nn : Byte) : Statement (.addi x nn) :=
  ⟨opcodeTable[16], List.getElem_mem (l := opcodeTable) (n := 16) (by decide), OpcodeRow.selects_of (formatXNN_op _ x nn),
    congrArg₂ Instr.addi (fieldX_formatXNN _ x nn) (fieldNN_formatXNN _ x nn)⟩

theorem mov (x : Reg) (y : Reg) : Statement (.mov x y) :=
  ⟨opcodeTable[17], List.getElem_mem (l := opcodeTable) (n := 17) (by decide), OpcodeRow.selects_of (formatXYN_and _ x y _ 0xF),
    congrArg₂ Instr.mov (fieldX_formatXYN _ x y _) (fieldY_formatXYN _ x y _)⟩

theorem or (x : Reg) (y : Reg) : Statement (.or x y) :=
  ⟨opcodeTable[18], List.getElem_mem (l := opcodeTable) (n := 18) (by decide), OpcodeRow.selects_of (formatXYN_and _ x y _ 0xF),
    congrArg₂ Instr.or (fieldX_formatXYN _ x y _) (fieldY_formatXYN _ x y _)⟩

theorem and (x : Reg) (y : Reg) : Statement (.and x y) :=
  ⟨opcodeTable[19], List.getElem_mem (l := opcodeTable) (n := 19) (by decide), OpcodeRow.selects_of (formatXYN_and _ x y _ 0xF),
    congrArg₂ Instr.and (fieldX_formatXYN _ x y _) (fieldY_formatXYN _ x y _)⟩

theorem xor (x : Reg) (y : Reg) : Statement (.xor x y) :=
  ⟨opcodeTable[20], List.getElem_mem (l := opcodeTable) (n := 20) (by decide), OpcodeRow.selects_of (formatXYN_and _ x y _ 0xF),
    congrArg₂ Instr.xor (fieldX_formatXYN _ x y _) (fieldY_formatXYN _ x y _)⟩

theorem add (x : Reg) (y : Reg) : Statement (.add x y) :=
  ⟨opcodeTable[21], List.getElem_mem (l := opcodeTable) (n := 21) (by decide), OpcodeRow.selects_of (formatXYN_and _ x y _ 0xF),
    congrArg₂ Instr.add (fieldX_formatXYN _ x y _) (fieldY_formatXYN _ x y _)⟩

theorem sub (x : Reg) (y : Reg) : Statement (.sub x y) :=
  ⟨opcodeTable[22], List.getElem_mem (l := opcodeTable) (n := 22) (by decide), OpcodeRow.selects_of (formatXYN_and _ x y _ 0xF),
    congrArg₂ Instr.sub (fieldX_formatXYN _ x y _) (fieldY_formatXYN _ x y _)⟩

theorem shr (x : Reg) (y : Reg) : Statement (.shr x y) :=
  ⟨opcodeTable[23], List.getElem_mem (l := opcodeTable) (n := 23) (by decide), OpcodeRow.selects_of (formatXYN_and _ x y _ 0xF),
    congrArg₂ Instr.shr (fieldX_formatXYN _ x y _) (fieldY_formatXYN _ x y _)⟩

theorem subn (x : Reg) (y : Reg) : Statement (.subn x y) :=
  ⟨opcodeTable[24], List.getElem_mem (l := opcodeTable) (n := 24) (by decide), OpcodeRow.selects_of (formatXYN_and _ x y _ 0xF),
    congrArg₂ Instr.subn (fieldX_formatXYN _ x y _) (fieldY_formatXYN _ x y _)⟩

theorem shl (x : Reg) (y : Reg) : Statement (.shl x y) :=
  ⟨opcodeTable[25], List.getElem_mem (l := opcodeTable) (n := 25) (by decide), OpcodeRow.selects_of (formatXYN_and _ x y _ 0xF),
    congrArg₂ Instr.shl (fieldX_formatXYN _ x y _) (fieldY_formatXYN _ x y _)⟩

theorem sner (x : Reg) (y : Reg) : Statement (.sner x y) :=
  ⟨opcodeTable[13], List.getElem_mem (l := opcodeTable) (n := 13) (by decide), OpcodeRow.selects_of (formatXYN_and _ x y _ 0xF),
    congrArg₂ Instr.sner (fieldX_formatXYN _ x y _) (fieldY_formatXYN _ x y _)⟩

theorem ldidx (nnn : Addr12) : Statement (.ldidx nnn) :=
  ⟨opcodeTable[27], List.getElem_mem (l := opcodeTable) (n := 27) (by decide), OpcodeRow.selects_of (formatNNN_and _ nnn),
    congrArg Instr.ldidx (fieldNNN_formatNNN _ nnn)⟩

theorem jpoff (nnn : Addr12) : Statement (.jpoff nnn) :=
  ⟨opcodeTable[14], List.getElem_mem (l := opcodeTable) (n := 14) (by decide), OpcodeRow.selects_of (formatNNN_and _ nnn),
    congrArg Instr.jpoff (fieldNNN_formatNNN _ nnn)⟩

theorem rnd (x : Reg) (nn : Byte) : Statement (.rnd x nn) :=
  ⟨opcodeTable[26], List.getElem_mem (l := opcodeTable) (n := 26) (by decide), OpcodeRow.selects_of (formatXNN_op _ x nn),
    congrArg₂ Instr.rnd (fieldX_formatXNN _ x nn) (fieldNN_formatXNN _ x nn)⟩

theorem drw (x : Reg) (y : Reg) (n : Count) : Statement (.drw x y n) :=
  ⟨opcodeTable[6], List.getElem_mem (l := opcodeTable) (n := 6) (by decide), OpcodeRow.selects_of (formatXYN_op _ x y _),
    by
    show Instr.drw (fieldX _) (fieldY _) (fieldN _) = _
    rw [encode, fieldX_formatXYN, fieldY_formatXYN, fieldN_formatXYN]⟩

theorem skp (x : Reg) : Statement (.skp x) :=
  ⟨opcodeTable[34], List.getElem_mem (l := opcodeTable) (n := 34) (by decide), OpcodeRow.selects_of (formatXNN_and _ x _ 0xFF),
    congrArg Instr.skp (fieldX_formatXNN _ x _)⟩

theorem sknp (x : Reg) : Statement (.sknp x) :=
  ⟨opcodeTable[35], List.getElem_mem (l := opcodeTable) (n := 35) (by decide), OpcodeRow.selects_of (formatXNN_and _ x _ 0xFF),
    congrArg Instr.sknp (fieldX_formatXNN _ x _)⟩

theorem lddt (x : Reg) : Statement (.lddt x) :=
  ⟨opcodeTable[36], List.getElem_mem (l := opcodeTable) (n := 36) (by decide), OpcodeRow.selects_of (formatXNN_and _ x _ 0xFF),
    congrArg Instr.lddt (fieldX_formatXNN _ x _)⟩

theorem waitk (x : Reg) : Statement (.waitk x) :=
  ⟨opcodeTable[37], List.getElem_mem (l := opcodeTable) (n := 37) (by decide), OpcodeRow.selects_of (formatXNN_and _ x _ 0xFF),
    congrArg Instr.waitk (fieldX_formatXNN _ x _)⟩

theorem stdt (x : Reg) : Statement (.stdt x) :=
  ⟨opcodeTable[38], List.getElem_mem (l := opcodeTable) (n := 38) (by decide), OpcodeRow.selects_of (formatXNN_and _ x _ 0xFF),
    congrArg Instr.stdt (fieldX_formatXNN _ x _)⟩

theorem stst (x : Reg) : Statement (.stst x) :=
  ⟨opcodeTable[39], List.getElem_mem (l := opcodeTable) (n := 39) (by decide), OpcodeRow.selects_of (formatXNN_and _ x _ 0xFF),
    congrArg Instr.stst (fieldX_formatXNN _ x _)⟩

theorem addidx (x : Reg) : Statement (.addidx x) :=
  ⟨opcodeTable[28], List.getElem_mem (l := opcodeTable) (n := 28) (by decide), OpcodeRow.selects_of (formatXNN_and _ x _ 0xFF),
    congrArg Instr.addidx (fieldX_formatXNN _ x _)⟩

theorem font (x : Reg) : Statement (.font x) :=
  ⟨opcodeTable[29], List.getElem_mem (l := opcodeTable) (n := 29) (by decide), OpcodeRow.selects_of (formatXNN_and _ x _ 0xFF),
    congrArg Instr.font (fieldX_formatXNN _ x _)⟩

theorem bigfont (x : Reg) : Statement (.bigfont x) :=
  ⟨opcodeTable[30], List.getElem_mem (l := opcodeTable) (n := 30) (by decide), OpcodeRow.selects_of (formatXNN_and _ x _ 0xFF),
    congrArg Instr.bigfont (fieldX_formatXNN _ x _)⟩

theorem bcd (x : Reg) : Statement (.bcd x) :=
  ⟨opcodeTable[31], List.getElem_mem (l := opcodeTable) (n := 31) (by decide), OpcodeRow.selects_of (formatXNN_and _ x _ 0xFF),
    congrArg Instr.bcd (fieldX_formatXNN _ x _)⟩

theorem stm (x : Reg) : Statement (.stm x) :=
  ⟨opcodeTable[32], List.getElem_mem (l := opcodeTable) (n := 32) (by decide), OpcodeRow.selects_of (formatXNN_and _ x _ 0xFF),
    congrArg Instr.stm (fieldX_formatXNN _ x _)⟩

theorem ldm (x : Reg) : Statement (.ldm x) :=
  ⟨opcodeTable[33], List.getElem_mem (l := opcodeTable) (n := 33) (by decide), OpcodeRow.selects_of (formatXNN_and _ x _ 0xFF),
    congrArg Instr.ldm (fieldX_formatXNN _ x _)⟩

theorem strpl (x : Reg) : Statement (.strpl x) :=
  ⟨opcodeTable[40], List.getElem_mem (l := opcodeTable) (n := 40) (by decide), OpcodeRow.selects_of (formatXNN_and _ x _ 0xFF),
    congrArg Instr.strpl (fieldX_formatXNN _ x _)⟩

theorem ldrpl (x : Reg) : Statement (.ldrpl x) :=
  ⟨opcodeTable[41], List.getElem_mem (l := opcodeTable) (n := 41) (by decide), OpcodeRow.selects_of (formatXNN_and _ x _ 0xFF),
    congrArg Instr.ldrpl (fieldX_formatXNN _ x _)⟩

end Sys2Proof.Laws.TableRow
end

