-- ==== Sys2Proof/Tests/Slice0.lean ====
section
/-! SUPPORT. The model's own tests: ill-formed terms the checks refuse, one word of every instruction decoded, and one step on a
small state for every instruction. Expected values are those of `spec/95_test_vectors.md` (the vector is named) or of the
patterns of `30_encoding.md` R56. -/

namespace Sys2Proof.Tests

open Sys2Proof Sys2Proof.Machine

/-! ### Well-formedness -/

theorem test_fits_refuses_register_16 : Field.fits ⟨"X", 4, 16⟩ = false := by decide
theorem test_fits_refuses_register_y_16 : Field.fits ⟨"Y", 4, 16⟩ = false := by decide
theorem test_fits_refuses_count_16 : Field.fits ⟨"N", 4, 16⟩ = false := by decide
theorem test_fits_refuses_byte_256 : Field.fits ⟨"NN", 8, 256⟩ = false := by decide
theorem test_fits_refuses_address_4096 : Field.fits ⟨"NNN", 12, 4096⟩ = false := by decide
theorem test_fits_accepts_limits :
    Field.fits ⟨"X", 4, 15⟩ = true ∧ Field.fits ⟨"NN", 8, 255⟩ = true ∧ Field.fits ⟨"NNN", 12, 4095⟩ = true := by decide
/-- V-R5. -/
theorem test_romFits_refuses_3585_bytes : romFits (List.replicate 3585 0) = false := by
  simp only [romFits, List.length_replicate]; decide
/-- V-R4. -/
theorem test_romFits_accepts_3584_bytes : romFits (List.replicate 3584 0) = true := by
  simp only [romFits, List.length_replicate]; decide

/-! ### Decoding: a word of every pattern of R56 -/

theorem test_decode_scd : decodeWord 0x00C5 = .ok (.scd 5) := by decide
theorem test_decode_cls : decodeWord 0x00E0 = .ok .cls := by decide
theorem test_decode_ret : decodeWord 0x00EE = .ok .ret := by decide
theorem test_decode_scr : decodeWord 0x00FB = .ok .scr := by decide
theorem test_decode_scl : decodeWord 0x00FC = .ok .scl := by decide
theorem test_decode_exit : decodeWord 0x00FD = .ok .exit := by decide
theorem test_decode_lores : decodeWord 0x00FE = .ok .lores := by decide
theorem test_decode_hires : decodeWord 0x00FF = .ok .hires := by decide
theorem test_decode_jp : decodeWord 0x12C9 = .ok (.jp 0x2C9) := by decide
theorem test_decode_call : decodeWord 0x22C9 = .ok (.call 0x2C9) := by decide
theorem test_decode_sei : decodeWord 0x33B7 = .ok (.sei 3 0xB7) := by decide
theorem test_decode_snei : decodeWord 0x43B7 = .ok (.snei 3 0xB7) := by decide
theorem test_decode_ser : decodeWord 0x53A0 = .ok (.ser 3 10) := by decide
theorem test_decode_ldi : decodeWord 0x63B7 = .ok (.ldi 3 0xB7) := by decide
theorem test_decode_addi : decodeWord 0x73B7 = .ok (.addi 3 0xB7) := by decide
theorem test_decode_mov : decodeWord 0x83A0 = .ok (.mov 3 10) := by decide
theorem test_decode_or : decodeWord 0x83A1 = .ok (.or 3 10) := by decide
theorem test_decode_and : decodeWord 0x83A2 = .ok (.and 3 10) := by decide
theorem test_decode_xor : decodeWord 0x83A3 = .ok (.xor 3 10) := by decide
theorem test_decode_add : decodeWord 0x83A4 = .ok (.add 3 10) := by decide
theorem test_decode_sub : decodeWord 0x83A5 = .ok (.sub 3 10) := by decide
theorem test_decode_shr : decodeWord 0x83A6 = .ok (.shr 3 10) := by decide
theorem test_decode_subn : decodeWord 0x83A7 = .ok (.subn 3 10) := by decide
theorem test_decode_shl : decodeWord 0x83AE = .ok (.shl 3 10) := by decide
theorem test_decode_sner : decodeWord 0x93A0 = .ok (.sner 3 10) := by decide
theorem test_decode_ldidx : decodeWord 0xA2C9 = .ok (.ldidx 0x2C9) := by decide
theorem test_decode_jpoff : decodeWord 0xB2C9 = .ok (.jpoff 0x2C9) := by decide
theorem test_decode_rnd : decodeWord 0xC3B7 = .ok (.rnd 3 0xB7) := by decide
theorem test_decode_drw : decodeWord 0xD3A5 = .ok (.drw 3 10 5) := by decide
theorem test_decode_skp : decodeWord 0xE39E = .ok (.skp 3) := by decide
theorem test_decode_sknp : decodeWord 0xE3A1 = .ok (.sknp 3) := by decide
theorem test_decode_lddt : decodeWord 0xF307 = .ok (.lddt 3) := by decide
theorem test_decode_waitk : decodeWord 0xF30A = .ok (.waitk 3) := by decide
theorem test_decode_stdt : decodeWord 0xF315 = .ok (.stdt 3) := by decide
theorem test_decode_stst : decodeWord 0xF318 = .ok (.stst 3) := by decide
theorem test_decode_addidx : decodeWord 0xF31E = .ok (.addidx 3) := by decide
theorem test_decode_font : decodeWord 0xF329 = .ok (.font 3) := by decide
theorem test_decode_bigfont : decodeWord 0xF330 = .ok (.bigfont 3) := by decide
theorem test_decode_bcd : decodeWord 0xF333 = .ok (.bcd 3) := by decide
theorem test_decode_stm : decodeWord 0xF355 = .ok (.stm 3) := by decide
theorem test_decode_ldm : decodeWord 0xF365 = .ok (.ldm 3) := by decide
theorem test_decode_strpl : decodeWord 0xF375 = .ok (.strpl 3) := by decide
theorem test_decode_ldrpl : decodeWord 0xF385 = .ok (.ldrpl 3) := by decide

/-- R42: the first byte is the high byte (S12). -/
theorem test_decode_is_big_endian : decode [0x12, 0x34, 0x99] = .ok (.jp 0x234, [0x99]) := by decide
theorem test_decode_truncated : decode [0x12] = .error .truncated ∧ decode [] = .error .truncated := by decide
/-- R62's direction: the encoder on the same fields. -/
theorem test_encode_samples :
    encode (.add 3 10) = 0x83A4 ∧ encode (.scd 15) = 0x00CF ∧ encode (.drw 1 2 15) = 0xD12F ∧ encode (.ldm 15) = 0xFF65 := by
  decide

/-- V-S2. -/
theorem test_rejects_5121 : decodeWord 0x5121 = .error (.unrecognized 0x5121) := by decide
/-- V-S3. -/
theorem test_rejects_9AB1 : decodeWord 0x9AB1 = .error (.unrecognized 0x9AB1) := by decide
/-- V-S3. -/
theorem test_rejects_8008 : decodeWord 0x8008 = .error (.unrecognized 0x8008) := by decide
/-- V-S3. -/
theorem test_rejects_E000 : decodeWord 0xE000 = .error (.unrecognized 0xE000) := by decide
/-- V-S3. -/
theorem test_rejects_F000 : decodeWord 0xF000 = .error (.unrecognized 0xF000) := by decide
/-- V-S3. -/
theorem test_rejects_FF76 : decodeWord 0xFF76 = .error (.unrecognized 0xFF76) := by decide
/-- V-S3. -/
theorem test_rejects_00EF : decodeWord 0x00EF = .error (.unrecognized 0x00EF) := by decide
/-- V-S3. -/
theorem test_rejects_00BF : decodeWord 0x00BF = .error (.unrecognized 0x00BF) := by decide
/-- V-S3. -/
theorem test_rejects_0200 : decodeWord 0x0200 = .error (.unrecognized 0x0200) := by decide
/-- V-S1. -/
theorem test_rejects_0000 : decodeWord 0x0000 = .error (.unrecognized 0x0000) := by decide
/-- V-S4: 00C0 is a recognized word. -/
theorem test_decode_scd_zero : decodeWord 0x00C0 = .ok (.scd 0) := by decide
theorem test_decodeTableWord : decodeTableWord 16 0xF233 = some (.bcd 2) ∧ decodeTableWord 16 0x0123 = none := by decide

/-! ### One step -/

/-- The convention of the vectors: reset with the word at 0x200, no tick, no key, `rand` 0. -/
def start (word : Nat) : State :=
  { State.reset.withFetchWord 16 word with tdeadline := 1000, upcoming := [⟨0, 0, 0⟩] }

/-- The same with the word at another address, PC there. -/
def startAt (pc : Word) (word : Nat) : State :=
  { State.withFetchWord { State.reset with pc := pc } 16 word with tdeadline := 1000, upcoming := [⟨0, 0, 0⟩] }

/-- Registers set to values. -/
def withRegs (s : State) : List (Reg × Byte) → State
  | [] => s
  | (x, b) :: rest => withRegs (s.setReg x b) rest

/-- Bytes stored from an address up. -/
def withMem (s : State) (a : Nat) (bytes : List Byte) : State := { s with mem := s.mem.writeBytes a bytes }

/-- Cells lit, written (column, row). -/
def withLit (s : State) (cells : List (Nat × Nat)) : State := { s with disp := cells.foldl (fun d c => d.flip c.1 c.2) s.disp }

/-- What `f` reads after one step. -/
def after {α : Type} (s : State) (f : State → α) : Option α :=
  match step s with
  | .next t => some (f t)
  | _ => none

/-- The lit cells of rows below `h`, row by row. -/
def lit (h : Nat) (s : State) : List (Nat × Nat) :=
  (List.range h).flatMap fun y => ((List.range 128).filter fun x => s.disp.cell x y).map fun x => (x, y)

/-- V-S1. -/
theorem test_unrecognized :
    after (start 0x0000) (fun t => (t.pc, t.report, t.fault)) = some (0x202, some 0x0000, FaultReg.clear) := by decide

/-- V-S5. -/
theorem test_unrecognized_ticks :
    after ({ start 0x0000 with tdeadline := 0, dt := 5, st := 1 }) (fun t => (t.dt, t.st, t.soundOff, t.report)) = some (4, 0, true, some 0x0000) := by decide

/-- V-S6. -/
theorem test_timer_floor :
    after ({ start 0x8000 with tdeadline := 0 }) (fun t => (t.pc, t.dt, t.st)) = some (0x202, 0, 0) := by decide

/-- V-S7. -/
theorem test_tick_not_due :
    after ({ start 0x8000 with tdeadline := 100, tickPeriod := 16, dt := 3, input := ⟨0, 99, 0⟩ }) (fun t => (t.dt, t.tdeadline)) = some (3, 100) := by decide

/-- V-S8. -/
theorem test_tick_at_equality :
    after ({ start 0x8000 with tdeadline := 100, tickPeriod := 16, dt := 3, input := ⟨0, 100, 0⟩ }) (fun t => (t.dt, t.tdeadline)) = some (2, 116) := by decide

/-- V-S10. -/
theorem test_fetch_at_top :
    after (startAt 0xFFE 0x0000) (fun t => (t.pc, t.report, t.fault)) = some (0x1000, some 0x0000, FaultReg.clear) := by decide

/-- V-S11. -/
theorem test_fetch_above_memory :
    after ({ start 0x0000 with pc := 0x1000 }) (fun t => (t.pc, t.report, t.fault)) = some (0x1000, none, ⟨.memoryFault .fetch, 0x1000, 0x1000⟩) := by decide

/-- V-S13. -/
theorem test_fetch_fault_keeps_tick :
    after ({ withRegs (start 0x0000) [(0, 5)] with pc := 0x0FFF, tdeadline := 0, dt := 5 }) (fun t => (t.dt, t.reg 0, t.fault.cause)) = some (4, 5, .memoryFault .fetch) := by decide

/-- V-S14. -/
theorem test_halted :
    after ({ start 0x6011 with fault := ⟨.stackFault .overflow, 0x300, 0⟩, pc := 0x300, tdeadline := 0, dt := 5 }) (fun t => (t.pc, t.dt, t.tdeadline, t.report)) = some (0x300, 5, 0, none) := by decide

/-- V-S15. -/
theorem test_exit_does_not_halt :
    after ({ start 0x6011 with exit := true }) (fun t => (t.reg 0, t.pc)) = some (0x11, 0x202) := by decide

/-! Control transfer -/

/-- V-C1. -/
theorem test_jp_self :
    after (startAt 0x208 0x1208) (fun t => t.pc) = some 0x208 := by decide

/-- V-C2. -/
theorem test_jp_odd :
    after (start 0x1ABD) (fun t => (t.pc, t.fault.cause)) = some (0x0ABD, .none) := by decide

/-- V-C3. -/
theorem test_call :
    after (startAt 0x204 0x220A) (fun t => (t.stack[0], t.sp, t.pc)) = some (0x0206, 1, 0x020A) := by decide

/-- V-C5, the seventeenth step. -/
theorem test_call_overflow :
    after ({ start 0x2200 with sp := 16 }) (fun t => (t.fault, t.sp, t.pc)) = some (⟨.stackFault .overflow, 0x200, 0⟩, 16, 0x200) := by decide

/-- V-C4. -/
theorem test_ret :
    after ({ startAt 0x20E 0x00EE with sp := 1, stack := State.reset.stack.set 0 0x0206 }) (fun t => (t.pc, t.sp, t.stack[0])) = some (0x0206, 0, 0x0206) := by decide

/-- V-C6. -/
theorem test_ret_underflow :
    after (start 0x00EE) (fun t => (t.fault, t.pc, t.sp)) = some (⟨.stackFault .underflow, 0x200, 0⟩, 0x200, 0) := by decide

/-- V-C7. -/
theorem test_jpoff_legacy :
    after ({ withRegs (start 0xB2F0) [(0, 0x04), (2, 0x10)] with quirks := ⟨false, true, false, false⟩ }) (fun t => t.pc) = some 0x02F4 := by decide

/-- V-C8. -/
theorem test_jpoff_modern :
    after (withRegs (start 0xB2F0) [(0, 0x04), (2, 0x10)]) (fun t => t.pc) = some 0x0300 := by decide

/-- V-C10. -/
theorem test_sei_skips :
    after (startAt 0x208 0x3000) (fun t => t.pc) = some 0x20C := by decide

/-- V-C11. -/
theorem test_sei_falls_through :
    after (withRegs (startAt 0x208 0x3000) [(0, 1)]) (fun t => t.pc) = some 0x20A := by decide

/-- V-C12. -/
theorem test_snei_falls_through :
    after (withRegs (startAt 0x300 0x4510) [(5, 0x10)]) (fun t => t.pc) = some 0x302 := by decide

/-- V-C12. -/
theorem test_snei_skips :
    after (withRegs (startAt 0x300 0x4511) [(5, 0x10)]) (fun t => t.pc) = some 0x304 := by decide

/-- V-C13. -/
theorem test_ser :
    after (withRegs (start 0x5120) [(1, 0x07), (2, 0x07)]) (fun t => t.pc) = some 0x204 := by decide

/-- V-C14. -/
theorem test_ser_same_register :
    after (withRegs (start 0x5330) [(3, 0x09)]) (fun t => t.pc) = some 0x204 := by decide

/-- V-C15. -/
theorem test_sner :
    after (withRegs (start 0x9120) [(1, 0x07), (2, 0x08)]) (fun t => t.pc) = some 0x204 := by decide

/-- V-C14. -/
theorem test_sner_same_register :
    after (withRegs (start 0x9330) [(3, 0x09)]) (fun t => t.pc) = some 0x202 := by decide

/-! Load and arithmetic -/

/-- V-A1. -/
theorem test_ldi :
    after (start 0x60FF) (fun t => (t.reg 0, t.pc)) = some (0xFF, 0x202) := by decide

/-- V-A2. -/
theorem test_addi_wraps :
    after (withRegs (start 0x7001) [(0, 0xFF)]) (fun t => (t.reg 0, t.reg 15)) = some (0, 0) := by decide

/-- V-A3. -/
theorem test_addi_vf :
    after (start 0x7FFF) (fun t => t.reg 15) = some 0xFF := by decide

/-- V-A4. -/
theorem test_mov :
    after (withRegs (start 0x8F10) [(1, 0x33)]) (fun t => t.reg 15) = some 0x33 := by decide

/-- V-A5. -/
theorem test_or :
    after (withRegs (start 0x8121) [(1, 0xF0), (2, 0x0F), (15, 0x5A)]) (fun t => (t.reg 1, t.reg 15)) = some (0xFF, 0x5A) := by decide

/-- V-A6. -/
theorem test_and :
    after (withRegs (start 0x8122) [(1, 0xF0), (2, 0x3C)]) (fun t => t.reg 1) = some 0x30 := by decide

/-- V-A7. -/
theorem test_xor :
    after (withRegs (start 0x8123) [(1, 0xF0), (2, 0x3C)]) (fun t => t.reg 1) = some 0xCC := by decide

/-- V-A9. -/
theorem test_add_carry :
    after (withRegs (start 0x8014) [(0, 0xFF), (1, 0x02)]) (fun t => (t.reg 0, t.reg 15)) = some (1, 1) := by decide

/-- V-A15. -/
theorem test_add_into_vf :
    after (withRegs (start 0x81F4) [(1, 0x01), (15, 0xFF)]) (fun t => (t.reg 1, t.reg 15)) = some (0, 1) := by decide

/-- V-A18. -/
theorem test_sub_borrow :
    after (withRegs (start 0x8015) [(0, 0x03), (1, 0x08)]) (fun t => (t.reg 0, t.reg 15)) = some (0xFB, 0) := by decide

/-- V-A19. -/
theorem test_sub_equal :
    after (start 0x8015) (fun t => (t.reg 0, t.reg 15)) = some (0, 1) := by decide

/-- V-A25. -/
theorem test_shr_modern :
    after (withRegs (start 0x8126) [(1, 0x05), (2, 0xF0)]) (fun t => (t.reg 1, t.reg 15, t.reg 2)) = some (2, 1, 0xF0) := by decide

/-- V-A26. -/
theorem test_shr_legacy :
    after ({ withRegs (start 0x8126) [(1, 0x05), (2, 0xF0)] with quirks := ⟨true, false, false, false⟩ }) (fun t => (t.reg 1, t.reg 15, t.reg 2)) = some (0x78, 0, 0xF0) := by decide

/-- V-A23. -/
theorem test_subn :
    after (withRegs (start 0x8017) [(0, 0x03), (1, 0x08)]) (fun t => (t.reg 0, t.reg 15)) = some (5, 1) := by decide

/-- V-A24. -/
theorem test_subn_borrow :
    after (withRegs (start 0x8017) [(0, 0x08), (1, 0x03)]) (fun t => (t.reg 0, t.reg 15)) = some (0xFB, 0) := by decide

/-- V-A31. -/
theorem test_shl_modern :
    after (withRegs (start 0x812E) [(1, 0x81)]) (fun t => (t.reg 1, t.reg 15)) = some (2, 1) := by decide

/-- V-A34. -/
theorem test_shl_legacy_into_vf :
    after ({ withRegs (start 0x8F1E) [(1, 0x40)] with quirks := ⟨true, false, false, false⟩ }) (fun t => (t.reg 1, t.reg 15)) = some (0x40, 0) := by decide

/-- V-A35. -/
theorem test_rnd :
    after ({ start 0xC30F with input := ⟨0, 0, 0xA7⟩ }) (fun t => t.reg 3) = some 0x07 := by decide

/-! Index and memory -/

/-- V-M1. -/
theorem test_ldidx :
    after (start 0xAFFF) (fun t => t.i) = some 0x0FFF := by decide

/-- V-M2. -/
theorem test_addidx :
    after ({ withRegs (start 0xF11E) [(1, 0x05), (15, 0x01)] with i := 0x300 }) (fun t => (t.i, t.reg 15)) = some (0x305, 0) := by decide

/-- V-M3. -/
theorem test_addidx_wraps :
    after ({ withRegs (start 0xF11E) [(1, 0x05)] with i := 0xFFE }) (fun t => (t.i, t.reg 15)) = some (3, 1) := by decide

/-- V-M8. -/
theorem test_font_small :
    after (withRegs (start 0xF029) [(0, 0x0F)]) (fun t => t.i) = some 0x009B := by decide

/-- V-M9. -/
theorem test_font_large :
    after (withRegs (start 0xF029) [(0, 0x12)]) (fun t => t.i) = some 0x00B4 := by decide

/-- V-M11. -/
theorem test_bigfont :
    after (withRegs (start 0xF030) [(0, 0xFF)]) (fun t => t.i) = some 0x0A96 := by decide

/-- V-M12. -/
theorem test_bcd :
    after ({ withRegs (start 0xF033) [(0, 0xEA)] with i := 0x300 }) (fun t => (t.mem.readBytes 0x300 3, t.i)) = some ([2, 3, 4], 0x300) := by decide

/-- V-M17. -/
theorem test_bcd_font_fault :
    after ({ withRegs (start 0xF033) [(0, 0xFF)] with i := 0x04E }) (fun t => (t.fault, t.mem.readBytes 0x04E 2, t.pc)) = some (⟨.memoryFault .fontWrite, 0x200, 0x050⟩, [0, 0], 0x200) := by decide

/-- V-M19. -/
theorem test_stm :
    after ({ withRegs (start 0xF255) [(0, 0x11), (1, 0x22), (2, 0x33)] with i := 0x400, quirks := ⟨false, false, true, false⟩ }) (fun t => (t.mem.readBytes 0x400 4, t.i)) = some ([0x11, 0x22, 0x33, 0], 0x403) := by decide

/-- V-M21. -/
theorem test_stm_out_of_memory :
    after ({ withRegs (start 0xFF55) [(0, 0x11)] with i := 0xFF1 }) (fun t => (t.fault, t.mem.read 0xFF1, t.i)) = some (⟨.memoryFault .dataWrite, 0x200, 0x1000⟩, 0, 0xFF1) := by decide

/-- V-M23. -/
theorem test_ldm :
    after ({ withMem (start 0xF265) 0x300 [2, 3, 4] with i := 0x300 }) (fun t => (t.reg 0, t.reg 1, t.reg 2, t.i)) = some (2, 3, 4, 0x300) := by decide

/-- V-M25. -/
theorem test_ldm_out_of_memory :
    after ({ start 0xF165 with i := 0xFFF }) (fun t => (t.fault, t.reg 0)) = some (⟨.memoryFault .dataRead, 0x200, 0x1000⟩, 0) := by decide

/-! Display -/

/-- V-D23. -/
theorem test_cls :
    after ({ withLit (start 0x00E0) [(5, 0), (127, 63)] with hires := true }) (fun t => (lit 64 t, t.dirty, t.hires)) = some ([], true, true) := by decide

/-- V-D3. -/
theorem test_drw_clips :
    after ({ withRegs (withMem (start 0xD011) 0x300 [0xFF]) [(0, 0x3F)] with i := 0x300 }) (fun t => (lit 4 t, t.reg 15, t.dirty)) = some ([(126, 0), (127, 0), (126, 1), (127, 1)], 0, true) := by decide

/-- V-D10. -/
theorem test_drw_collides_cell_by_cell :
    after ({ withLit (withMem (start 0xD011) 0x300 [0x80]) [(0, 0)] with i := 0x300 }) (fun t => (lit 4 t, t.reg 15)) = some ([(1, 0), (0, 1), (1, 1)], 1) := by decide

/-- V-D13. -/
theorem test_scd_lores :
    after (withLit (start 0x00C3) [(5, 0)]) (fun t => (lit 10 t, t.dirty)) = some ([(5, 6)], true) := by decide

/-- V-D19. -/
theorem test_scd_hires_edge :
    after ({ withLit (start 0x00C3) [(5, 60), (5, 63)] with hires := true }) (fun t => lit 64 t) = some [(5, 63)] := by decide

/-- V-D16. -/
theorem test_scr :
    after ({ withLit (start 0x00FB) [(123, 0), (124, 0)] with hires := true }) (fun t => lit 2 t) = some [(127, 0)] := by decide

/-- V-D18. -/
theorem test_scl :
    after (withLit (start 0x00FC) [(3, 0), (4, 0), (127, 0)]) (fun t => lit 2 t) = some [(119, 0)] := by decide

/-- V-D22. -/
theorem test_hires :
    after (withLit (start 0x00FF) [(5, 0)]) (fun t => (t.hires, lit 2 t, t.dirty)) = some (true, [(5, 0)], false) := by decide

/-- V-D22. -/
theorem test_lores :
    after ({ start 0x00FE with hires := true }) (fun t => (t.hires, t.dirty)) = some (false, false) := by decide

/-! Keypad, timers, RPL flags, exit -/

/-- V-K1. -/
theorem test_skp :
    after ({ withRegs (start 0xE19E) [(1, 0x05)] with input := ⟨0xF5, 0, 0⟩ }) (fun t => t.pc) = some 0x204 := by decide

/-- V-K3. -/
theorem test_skp_eight_bits :
    after ({ withRegs (start 0xE19E) [(1, 0x15)] with input := ⟨0x15, 0, 0⟩ }) (fun t => t.pc) = some 0x202 := by decide

/-- V-K2. -/
theorem test_sknp :
    after ({ withRegs (start 0xE1A1) [(1, 0x05)] with input := ⟨0x16, 0, 0⟩ }) (fun t => t.pc) = some 0x204 := by decide

/-- V-K2. -/
theorem test_sknp_down :
    after ({ withRegs (start 0xE1A1) [(1, 0x05)] with input := ⟨0x15, 0, 0⟩ }) (fun t => t.pc) = some 0x202 := by decide

/-- V-K6, first step. -/
theorem test_waitk_waits :
    after ({ start 0xF30A with dt := 2, tdeadline := 0, input := ⟨0xE5, 0, 0⟩ }) (fun t => (t.pc, t.dt, t.reg 3)) = some (0x200, 1, 0) := by decide

/-- V-K5. -/
theorem test_waitk_takes :
    after ({ startAt 0x210 0xF30A with input := ⟨0x1B, 0, 0⟩ }) (fun t => (t.pc, t.reg 3)) = some (0x212, 0x0B) := by decide

/-- V-K8. -/
theorem test_lddt :
    after ({ start 0xF207 with dt := 0x20, tdeadline := 0 }) (fun t => (t.reg 2, t.dt)) = some (0x1F, 0x1F) := by decide

/-- V-K9. -/
theorem test_stdt :
    after (withRegs (start 0xF215) [(2, 0x3C)]) (fun t => t.dt) = some 0x3C := by decide

/-- V-K10. -/
theorem test_stst :
    after (withRegs (start 0xF018) [(0, 0x02)]) (fun t => (t.st, t.soundOff)) = some (2, false) := by decide

/-- V-K11. -/
theorem test_stst_zero :
    after ({ start 0xF018 with st := 9 }) (fun t => (t.st, t.soundOff)) = some (0, true) := by decide

/-- V-K12. -/
theorem test_strpl :
    after ({ withRegs (start 0xF175) [(0, 0xAA), (1, 0xBB)] with rpl := Vector.replicate 8 7 }) (fun t => t.rpl) = some (#v[0xAA, 0xBB, 7, 7, 7, 7, 7, 7]) := by decide

/-- V-K14. -/
theorem test_ldrpl :
    after ({ withRegs (start 0xF185) [(15, 0x77)] with rpl := #v[0xAA, 0xBB, 1, 1, 1, 1, 1, 1] }) (fun t => (t.reg 0, t.reg 1, t.reg 2, t.reg 15)) = some (0xAA, 0xBB, 0, 0x77) := by decide

/-- V-K16. -/
theorem test_exit :
    after (startAt 0x206 0x00FD) (fun t => (t.exit, t.pc)) = some (true, 0x208) := by decide

/-! ### The host's operations -/

/-- V-R1. -/
theorem test_hostReset :
    let t := State.hostReset 0b0101 { State.reset with fault := ⟨.stackFault .overflow, 0x300, 0⟩, dirty := true, hires := true }
    t.quirks = ⟨true, false, true, false⟩ ∧ t.halted = false ∧ t.dirty = false ∧ t.hires = false ∧ t.pc = 0x200 := by decide

/-- V-R2. -/
theorem test_reset_memory :
    State.reset.mem.read 0x04F = 0 ∧ State.reset.mem.readBytes 0x050 5 = [0xF0, 0x90, 0x90, 0x90, 0xF0] ∧
    State.reset.mem.readBytes 0x09B 5 = [0xF0, 0x80, 0xF0, 0x80, 0x80] ∧ State.reset.mem.read 0x104 = 0 ∧
    State.reset.mem.read 0x200 = 0 := by decide

/-- V-R3. -/
theorem test_loadRom :
    (match State.loadRom [0x00, 0xE0, 0x60, 0xFF, 0x70, 0x01] State.reset with
      | .ok t => t.mem.readBytes 0x200 7
      | .error _ => []) = [0x00, 0xE0, 0x60, 0xFF, 0x70, 0x01, 0x00] := by decide

/-- V-R6. -/
theorem test_consumeDisplay : (State.consumeDisplay { State.reset with dirty := true }).dirty = false := by decide

/-- The FAULT codes of R122. -/
theorem test_fault_codes :
    (FaultCause.memoryFault .fontWrite).code = 1 ∧ (FaultCause.memoryFault .fontWrite).kindCode = 3 ∧
    (FaultCause.stackFault .underflow).code = 2 ∧ (FaultCause.stackFault .underflow).kindCode = 1 ∧
    FaultCause.none.code = 0 := by decide

/-- The free inputs come only after the listed ones. -/
theorem test_inputs_presented :
    after { start 0x1200 with upcoming := [⟨0x15, 7, 9⟩, ⟨1, 2, 3⟩] } (fun t => (t.input, t.upcoming, t.drawn)) =
      some (⟨0x15, 7, 9⟩, [⟨1, 2, 3⟩], 0) := by decide

end Sys2Proof.Tests
end

