-- ==== Sys2Proof/Tests/Witnesses.lean ====
section
/-! SUPPORT. For every obligation with hypotheses, concrete states and operands that meet all of them together, at the limits of
each clause. The name after `witness_` is the obligation's. -/

namespace Sys2Proof.Tests

open Sys2Proof Sys2Proof.Machine

/-- A state no reset gives: registers, I and a stored byte differ from reset. -/
def busy : State := { withMem (withRegs (start 0x8014) [(0, 0xFF), (1, 0x02)]) 0x300 [0xFF] with i := 0x300 }

theorem busy_wf : busy.mem.wf = true := by decide

theorem witness_LoadRomCopiesImageOrFails :
    busy.mem.wf = true ∧ (List.replicate 3584 (1 : Byte)).length ≤ 3584 ∧ 3584 < (List.replicate 3585 (1 : Byte)).length := by
  simp only [List.length_replicate]; decide

theorem witness_StepRunsDecodedInstruction :
    busy.fault.cause = .none ∧ busy.pc.toNat ≤ 0x0FFE ∧ (Instr.add 0 1).wellFormed = true ∧
    decode [busy.mem.read busy.pc.toNat, busy.mem.read (busy.pc.toNat + 1)] = .ok (.add 0 1, []) := by decide

theorem witness_StepRunsDecodedInstruction_at_the_last_fetch :
    (startAt 0xFFE 0x1FFF).fault.cause = .none ∧ (startAt 0xFFE 0x1FFF).pc.toNat = 0x0FFE ∧
    decode [(startAt 0xFFE 0x1FFF).mem.read 0xFFE, (startAt 0xFFE 0x1FFF).mem.read 0xFFF] = .ok (.jp 0xFFF, []) := by decide

theorem witness_InputsArePresentedBetweenSteps :
    (∃ s : State, ∃ inp later, s.upcoming = inp :: later) ∧ State.reset.upcoming = [] :=
  ⟨⟨start 0, ⟨0, 0, 0⟩, [], rfl⟩, rfl⟩

theorem witness_UnrecognizedWordIsReportedAndSkipped :
    (startAt 0xFFE 0x5121).fault.cause = .none ∧ (startAt 0xFFE 0x5121).pc.toNat = 0x0FFE ∧
    (0x5121 : Word) = (startAt 0xFFE 0x5121).mem.read 0xFFE ++ (startAt 0xFFE 0x5121).mem.read 0xFFF ∧
    ∃ e, decodeWord 0x5121 = .error e := by
  refine ⟨by decide, by decide, by decide, .unrecognized 0x5121, by decide⟩

/-- A core halted by a stack overflow. -/
def haltedCore : State := { start 0x6011 with fault := ⟨.stackFault .overflow, 0x300, 0⟩, pc := 0x300 }

theorem witness_HaltedStepChangesNothing : haltedCore.fault.cause ≠ .none := by decide

theorem witness_FetchAboveMemoryFaults :
    ({ start 0 with pc := 0x0FFF }).fault.cause = .none ∧ 0x0FFE < ({ start 0 with pc := 0x0FFF }).pc.toNat := by decide

theorem witness_TimersFallByAtMostOneAStep :
    ∃ s t, step s = .next t ∧ (∀ x, fetch16 s.mem s.pc ≠ some (encode (.stdt x))) ∧
      (∀ x, fetch16 s.mem s.pc ≠ some (encode (.stst x))) :=
  ⟨start 0x6011, _, rfl, by decide, by decide⟩

theorem witness_FaultsArePrecise : ∃ s t, s.fault.cause = .none ∧ step s = .next t ∧ t.fault.cause ≠ .none :=
  ⟨start 0x00EE, _, rfl, rfl, by decide⟩

theorem witness_FaultIsSticky : ∃ s t, s.fault.cause ≠ .none ∧ step s = .next t := ⟨haltedCore, _, by decide, rfl⟩

/-- The invariant of a state whose memory, I, PC, stack, FAULT and report are well formed, with the memory named. -/
theorem inv_of_fields {s : State} (hm : s.mem.wf = true)
    (hf : ∀ a, 0x050 ≤ a → a ≤ 0x13F → s.mem.read a = resetByte a) (hi : s.i.toNat ≤ 0x0FFF) (hp : s.pc.toNat ≤ 0x10FE)
    (hs : ∀ k : Fin 16, s.stack[k].toNat ≤ 0x1000) (hc : s.fault = FaultReg.clear) (hr : s.report = none) : s.Inv :=
  ⟨hm, hf, hi, hp, hs, by rw [hc]; simp [FaultReg.clear], by rw [hc]; rfl, by rw [hr]; simp⟩

/-- `busy` has the invariant and steps. -/
theorem busy_inv : busy.Inv := by
  refine inv_of_fields busy_wf ?_ (by decide) (by decide) (by decide) (by decide) (by decide)
  intro a h1 h2
  have he : busy.mem = (Memory.writeBytes [] 0x200 [0x80, 0x14]).writeBytes 0x300 [0xFF] := by decide
  rw [he, Memory.read_writeBytes_other _ _ _ _ (by simp only [List.length_cons, List.length_nil]; omega),
    Memory.read_writeBytes_other _ _ _ _ (by simp only [List.length_cons, List.length_nil]; omega)]
  rfl

theorem witness_StepKeepsStateInvariant : ∃ s t : State, s.Inv ∧ step s = .next t := ⟨busy, _, busy_inv, rfl⟩

theorem witness_HostOperationsKeepStateInvariant : ∃ (s t : State) (bytes : List Byte), s.Inv ∧ s.loadRom bytes = .ok t :=
  ⟨busy, _, [0x00, 0xE0], busy_inv, rfl⟩

theorem witness_NoStepWritesTheFontRegion : ∃ s t, step s = .next t ∧ 0x050 ≤ 0x050 ∧ 0x050 ≤ 0x13F :=
  ⟨{ start 0xF033 with i := 0x04E }, _, rfl, by decide, by decide⟩

theorem witness_CanonicalMemoriesAreDeterminedByTheirBytes :
    ∃ m n : Memory, m.wf = true ∧ n.wf = true ∧ ∀ a, m.read a = n.read a := ⟨[(0x300, 1)], [(0x300, 1)], by decide, by decide, fun _ => rfl⟩

theorem witness_InstructionsWriteOnlyTheirParts :
    (∃ t, exec (.add 0 1) busy = .next t ∧ t.fault = busy.fault ∧ busy.fault.cause = .none) ∧
    (∃ t, exec .ret busy = .next t ∧ t.fault ≠ busy.fault) :=
  ⟨⟨_, rfl, rfl, rfl⟩, ⟨_, rfl, by decide⟩⟩

theorem witness_RegistersChangeOnlyAsNamed :
    ∃ t, exec (.add 0 1) busy = .next t ∧ writesReg (.add 0 1) 14 = false ∧ (writesFlag (.add 0 1) = true → (14 : Reg) ≠ 15) :=
  ⟨_, rfl, by decide, by decide⟩

theorem witness_FlagIsZeroOrOne :
    ∃ t, writesFlag (.add 15 1) = true ∧ busy.fault.cause = .none ∧ exec (.add 15 1) busy = .next t ∧ t.fault.cause = .none :=
  ⟨_, rfl, rfl, rfl, rfl⟩

theorem witness_DirtyIsSetByDisplayWritersOnly :
    ∃ t, busy.fault.cause = .none ∧ exec .cls busy = .next t ∧ t.fault.cause = .none := ⟨_, rfl, rfl, rfl⟩

theorem witness_QuirksImmutableExitAndDirtySticky :
    ∃ s t, step s = .next t ∧ s.exit = true ∧ s.dirty = true := ⟨{ busy with exit := true, dirty := true }, _, rfl, rfl, rfl⟩

theorem witness_InputsAreReadOnlyAsNamed :
    ∃ (i : Instr) (inp : StepInput), inp ≠ busy.input ∧ readsKeys i = true ∧
      (readsKeys i = true → inp.keyInput = busy.input.keyInput) ∧ (readsRand i = true → inp.rand = busy.input.rand) :=
  ⟨.waitk 3, ⟨0, 7, 9⟩, by decide, rfl, by decide, by decide⟩

theorem witness_DecodeOfEncodeIsTheInstruction : (Instr.drw 15 15 15).wellFormed = true := by decide

theorem witness_EncodeOfDecodeIsTheWord : decodeWord 0xFF65 = .ok (.ldm 15) := by decide

theorem witness_JumpWithOffsetAddsTheQuirkRegister : (15 : Reg).val = (0xFFF : Addr12).toNat / 256 := by decide

theorem witness_CallPushesReturnAddress : ({ busy with sp := 15 }).sp.val < 16 := by decide

theorem witness_ReturnPopsPc :
    ({ busy with sp := 1 }).sp.val = (0 : Fin 16).val + 1 ∧ ({ busy with sp := 16 }).sp.val = (15 : Fin 16).val + 1 := by decide

theorem witness_StackFaultsChangeOnlyFault : ({ busy with sp := 16 }).sp = 16 ∧ busy.sp = 0 := by decide

theorem witness_CallThenReturnComesBack : busy.sp.val < 16 := by decide

theorem witness_ShiftsWriteResultAndBitShiftedOut :
    ∃ a : Byte, a = (if busy.quirks.shift then busy.reg 1 else busy.reg 0) := ⟨0xFF, by decide⟩

theorem witness_BcdStoresThreeDigits :
    busy.mem.wf = true ∧ (InMemory ({ busy with i := 0xFFD }).base 3 ∧ MissesFont ({ busy with i := 0xFFD }).base 3) ∧
    (InMemory ({ busy with i := 0x04D }).base 3 ∧ MissesFont ({ busy with i := 0x04D }).base 3) ∧
    (InMemory ({ busy with i := 0x140 }).base 3 ∧ MissesFont ({ busy with i := 0x140 }).base 3) := by
  refine ⟨busy_wf, ?_⟩; unfold InMemory MissesFont; decide

theorem witness_StoreMultipleWritesRegisters :
    busy.mem.wf = true ∧ (InMemory ({ busy with i := 0xFF0 }).base 16 ∧ MissesFont ({ busy with i := 0xFF0 }).base 16) ∧
    (InMemory ({ busy with i := 0x040 }).base 16 ∧ MissesFont ({ busy with i := 0x040 }).base 16) ∧
    (InMemory ({ busy with i := 0x140 }).base 1 ∧ MissesFont ({ busy with i := 0x140 }).base 1) := by
  refine ⟨busy_wf, ?_⟩; unfold InMemory MissesFont; decide

theorem witness_LoadMultipleReadsRegisters :
    InMemory ({ busy with i := 0xFF0 }).base 16 ∧ InMemory ({ busy with i := 0x050 }).base 5 := by unfold InMemory; decide

theorem witness_BadStoresFaultAndStoreNothing :
    (((Instr.bcd 0 = .bcd 0 ∧ 3 = 3) ∨ (Instr.bcd 0 = .stm 0 ∧ 3 = (0 : Reg).val + 1)) ∧
      ¬ InMemory ({ busy with i := 0xFFE }).base 3) ∧
    (((Instr.stm 15 = .bcd 15 ∧ 16 = 3) ∨ (Instr.stm 15 = .stm 15 ∧ 16 = (15 : Reg).val + 1)) ∧
      InMemory ({ busy with i := 0x041 }).base 16 ∧ ¬ MissesFont ({ busy with i := 0x041 }).base 16) ∧
    (InMemory ({ busy with i := 0x13F }).base 3 ∧ ¬ MissesFont ({ busy with i := 0x13F }).base 3) := by
  unfold InMemory MissesFont; decide

theorem witness_BadReadsFaultAndChangeNothing :
    ((Instr.ldm 15 = .ldm 15 ∧ ¬ InMemory ({ busy with i := 0xFF1 }).base 16) ∧
      (Instr.drw 0 1 2 = .drw 0 1 2 ∧ (2 : Count) ≠ 0 ∧ ¬ InMemory ({ busy with i := 0xFFF }).base 2)) := by
  unfold InMemory; decide

/-- The sprite row 0xFF at I covers the cells (126, 0) to (127, 1) of a low-resolution screen at column 63, and one of them is
lit. -/
theorem witness_DrawFlipsTheCoveredCells :
    ∃ s : State, ((1 : Count) = 0 ∨ InMemory s.base 1) ∧ SpriteCovers s 0 2 1 126 1 ∧ ¬ SpriteCovers s 0 2 1 125 1 ∧
      s.disp.cell 126 1 = true ∧ ((0 : Count) = 0 ∨ InMemory s.base 0) :=
  ⟨withLit (withRegs busy [(0, 0x3F)]) [(126, 1)], .inr (by unfold InMemory; decide), by unfold SpriteCovers; decide,
    by unfold SpriteCovers; decide, by decide, .inl rfl⟩

/-- On a blank screen no covered cell is lit. -/
theorem witness_DrawFlipsTheCoveredCells_without_collision :
    ∃ s : State, ((1 : Count) = 0 ∨ InMemory s.base 1) ∧
      ∀ px py, px < 128 → py < 64 → SpriteCovers s 0 2 1 px py → s.disp.cell px py = false :=
  ⟨busy, .inr (by unfold InMemory; decide), fun px py _ _ _ => by
    have : busy.disp = Display.blank := rfl
    simp only [this, Display.cell_blank]⟩

theorem witness_DrawingTwiceRestoresTheBuffer :
    ∃ s t u : State, (0 : Reg) ≠ 15 ∧ (2 : Reg) ≠ 15 ∧ ((1 : Count) = 0 ∨ InMemory s.base 1) ∧
      exec (.drw 0 2 1) s = .next t ∧ exec (.drw 0 2 1) t = .next u :=
  ⟨busy, _, _, by decide, by decide, .inr (by unfold InMemory; decide),
    exec_drw_of_none 0 2 1 busy (by decide), exec_drw_of_none 0 2 1 _ (by decide)⟩

theorem witness_ScrollDownMovesRows :
    ∃ a : Nat, a = (if busy.hires ∨ busy.quirks.scroll then (15 : Count).val else 2 * (15 : Count).val) := ⟨30, by decide⟩

theorem witness_SidewaysScrollsMoveColumns :
    ∃ a : Nat, a = (if ({ busy with hires := true }).hires ∨ busy.quirks.scroll then 4 else 8) := ⟨4, by decide⟩

theorem witness_KeySkipsTestTheOneKeyDown :
    ∃ s : State, (true = true ↔ s.input.keyInput.toNat / 16 % 2 = 1 ∧ (s.reg 1).toNat = s.input.keyInput.toNat % 16) ∧
      (false = true ↔ s.input.keyInput.toNat / 16 % 2 = 1 ∧ (s.reg 2).toNat = s.input.keyInput.toNat % 16) :=
  ⟨{ withRegs busy [(1, 0x0F)] with input := ⟨0x1F, 0, 0⟩ }, by decide, by decide⟩

theorem witness_WaitForKeyTakesItOrRetries :
    ({ busy with input := ⟨0x1F, 0, 0⟩ }).input.keyInput.toNat / 16 % 2 = 1 ∧
    ({ busy with input := ⟨0xEF, 0, 0⟩ }).input.keyInput.toNat / 16 % 2 = 0 := by decide

theorem witness_RegisterSkipsFollowTheirCondition : (0 < 1 ∧ 1 < 16) ∧ (0 < 15 ∧ 15 < 16) := by decide

theorem witness_BitwiseInstructionsWriteOneRegister : 0 < 8 ∧ 7 < 8 ∧ (1 : Reg) ≠ 0 := by decide

theorem witness_AddWritesSumAndCarry : (0 : Reg) ≠ 15 ∧ (1 : Reg) ≠ 0 ∧ (1 : Reg) ≠ 15 := by decide

theorem witness_HostResetGivesResetState : 0x050 < 4096 ∧ 0x09F < 4096 ∧ 0x0A0 < 4096 ∧ 0x103 < 4096 ∧ 0x104 < 4096 ∧ 4095 < 4096 := by
  decide

theorem witness_UnrecognizedWordsAreThoseListed : ∃ w e, decodeWord w = .error e := ⟨0x5121, .unrecognized 0x5121, by decide⟩

theorem witness_RplInstructionsMoveClampedPrefix : 8 ≤ (8 : Reg).val ∧ 8 ≤ (15 : Reg).val := by decide

end Sys2Proof.Tests
end

section
/-! PROOFS. The presentation of inputs between two steps (`00_scope.md` R11; entry 1). -/

namespace Sys2Proof.Machine

/-- With inputs listed, the first of them is presented and leaves the list. -/
theorem State.presentNext_of_cons {s : State} {inp : StepInput} {later : List StepInput}
    (h : s.upcoming = inp :: later) : s.presentNext = { s with input := inp, upcoming := later } := by
  simp only [State.presentNext, h]

/-- With no input listed, the free values at the counter are presented. -/
theorem State.presentNext_of_nil {s : State} (h : s.upcoming = []) :
    s.presentNext = { s with input := freeInput s.drawn, drawn := s.drawn + 1 } := by
  simp only [State.presentNext, h]

/-- The frame of the presentation: only the model's input fields may move. -/
theorem State.presentNext_keptExcept (s : State) : KeptExcept inputParts s s.presentNext := by
  intro p hp
  cases p with
  | input | upcoming | drawn => exact absurd hp (by decide)
  | _ => simp [Kept]

/-- Settles O6: the frame is `State.presentNext_keptExcept`, and the inputs are read off the equation of each case of the
list `upcoming`. -/
theorem inputsArePresentedBetweenSteps : Obligations.InputsArePresentedBetweenSteps := by
  intro s
  refine ⟨s.presentNext_keptExcept, fun inp later h => ?listed, fun h => ?free⟩
  case listed => rw [State.presentNext_of_cons h]; exact ⟨rfl, rfl, rfl⟩
  case free => rw [State.presentNext_of_nil h]; exact ⟨rfl, h, rfl⟩

end Sys2Proof.Machine
end

section
/-! PROOFS. The frame of each named update, and from them the frame of every instruction (`10_state.md` R35). -/

namespace Sys2Proof.Machine

/-- A frame, part by part. -/
theorem keptExcept_iff {parts : List Part} {s t : State} :
    KeptExcept parts s t ↔
      (.v ∉ parts → ∀ r, t.reg r = s.reg r) ∧ (.pc ∉ parts → t.pc = s.pc) ∧ (.i ∉ parts → t.i = s.i) ∧
      (.stack ∉ parts → ∀ k : Fin 16, t.stack[k] = s.stack[k]) ∧ (.sp ∉ parts → t.sp = s.sp) ∧
      (.dt ∉ parts → t.dt = s.dt) ∧ (.st ∉ parts → t.st = s.st) ∧ (.tdeadline ∉ parts → t.tdeadline = s.tdeadline) ∧
      (.disp ∉ parts → ∀ x y, t.disp.cell x y = s.disp.cell x y) ∧ (.hires ∉ parts → t.hires = s.hires) ∧
      (.dirty ∉ parts → t.dirty = s.dirty) ∧ (.exit ∉ parts → t.exit = s.exit) ∧
      (.quirks ∉ parts → t.quirks = s.quirks) ∧ (.rpl ∉ parts → ∀ k : Fin 8, t.rpl[k] = s.rpl[k]) ∧
      (.fault ∉ parts → t.fault = s.fault) ∧ (.mem ∉ parts → ∀ a, t.mem.read a = s.mem.read a) ∧
      (.report ∉ parts → t.report = s.report) ∧ (.input ∉ parts → t.input = s.input) ∧
      (.upcoming ∉ parts → t.upcoming = s.upcoming) ∧ (.drawn ∉ parts → t.drawn = s.drawn) ∧
      (.tickPeriod ∉ parts → t.tickPeriod = s.tickPeriod) := by
  constructor
  · intro h
    exact ⟨h .v, h .pc, h .i, h .stack, h .sp, h .dt, h .st, h .tdeadline, h .disp, h .hires, h .dirty, h .exit, h .quirks,
      h .rpl, h .fault, h .mem, h .report, h .input, h .upcoming, h .drawn, h .tickPeriod⟩
  · rintro ⟨_, _, _, _, _, _, _, _, _, _, _, _, _, _, _, _, _, _, _, _, _⟩ p
    cases p <;> assumption

section
variable (s : State)

theorem State.setReg_keptExcept (x : Reg) (b : Byte) : KeptExcept [.v] s (s.setReg x b) := by simp [keptExcept_iff]

theorem State.setRegFlag_keptExcept (x : Reg) (b f : Byte) : KeptExcept [.v] s (s.setRegFlag x b f) := by
  simp [keptExcept_iff]

theorem State.loadRegs_keptExcept (x : Reg) (a : Nat) : KeptExcept [.v] s (s.loadRegs x a) := by simp [keptExcept_iff]

theorem State.setPc_keptExcept (p : Word) : KeptExcept [.pc] s (s.setPc p) := by simp [keptExcept_iff]

theorem State.skipIf_keptExcept (c : Bool) : KeptExcept [.pc] s (s.skipIf c) := by simp [keptExcept_iff]

theorem State.setIndex_keptExcept (a : Word) : KeptExcept [.i] s (s.setIndex a) := by simp [keptExcept_iff]

theorem State.bumpIndex_keptExcept (x : Reg) : KeptExcept [.i] s (s.bumpIndex x) := by simp [keptExcept_iff]

theorem State.setDisp_keptExcept (d : Display) : KeptExcept [.disp, .dirty] s (s.setDisp d) := by simp [keptExcept_iff]

/-- A store to memory keeps all but memory. -/
theorem mem_keptExcept (m : Memory) : KeptExcept [.mem] s { s with mem := m } := by simp [keptExcept_iff, State.reg]

/-- A move of the stack keeps all but the stack's entries and SP. -/
theorem stack_keptExcept (e : Vector Word 16) (n : Fin 17) :
    KeptExcept [.stack, .sp] s { s with stack := e, sp := n } := by simp [keptExcept_iff, State.reg]

/-- A pop leaves the stack's entries as well. -/
theorem sp_keptExcept (n : Fin 17) : KeptExcept [.sp] s { s with sp := n } := by simp [keptExcept_iff, State.reg]

end

/-! ### The six instructions that can take a fault: completed, or faulted -/

theorem exec_call_cases {nnn : Addr12} {s t : State} (h : exec (.call nnn) s = .next t) :
    (∃ hs : s.sp.val < 16, t = State.setPc
      { s with stack := s.stack.set s.sp.val s.pc, sp := ⟨s.sp.val + 1, by omega⟩ } (zextAddr nnn)) ∨
    (s.sp.val = 16 ∧ t = takeFault (.stackFault .overflow) 0 (s.pc - 2) s) :=
  push_cases (value := s.pc) (k := fun s => s.setPc (zextAddr nnn)) h

theorem exec_ret_cases {s t : State} (h : exec .ret s = .next t) :
    (∃ hs : 0 < s.sp.val,
      t = State.setPc { s with sp := ⟨s.sp.val - 1, by omega⟩ } (s.stack[s.sp.val - 1]'(by omega))) ∨
    (s.sp.val = 0 ∧ t = takeFault (.stackFault .underflow) 0 (s.pc - 2) s) :=
  pop_cases (k := fun target s => s.setPc target) h

theorem exec_bcd_cases {x : Reg} {s t : State} (h : exec (.bcd x) s = .next t) :
    (checkWrite s.base 3 = none ∧ t = { s with mem := s.mem.writeBytes s.base (bcdDigits (s.reg x)) }) ∨
    (∃ c a, checkWrite s.base 3 = some (c, a) ∧ t = takeFault c a (s.pc - 2) s) :=
  storeBytes_cases (bs := bcdDigits (s.reg x)) (k := fun s => s) h

theorem exec_stm_cases {x : Reg} {s t : State} (h : exec (.stm x) s = .next t) :
    (checkWrite s.base (x.val + 1) = none ∧
      t = State.bumpIndex { s with mem := s.mem.writeBytes s.base (s.regsUpTo x) } x) ∨
    (∃ c a, checkWrite s.base (x.val + 1) = some (c, a) ∧ t = takeFault c a (s.pc - 2) s) := by
  rw [← s.regsUpTo_length x]
  exact storeBytes_cases (k := fun s => s.bumpIndex x) h

theorem exec_ldm_cases {x : Reg} {s t : State} (h : exec (.ldm x) s = .next t) :
    (checkRead s.base (x.val + 1) = none ∧ t = (s.loadRegs x s.base).bumpIndex x) ∨
    (∃ c a, checkRead s.base (x.val + 1) = some (c, a) ∧ t = takeFault c a (s.pc - 2) s) :=
  guarded_cases (k := fun s => (s.loadRegs x s.base).bumpIndex x) h

theorem exec_drw_cases {x y : Reg} {n : Count} {s t : State} (h : exec (.drw x y n) s = .next t) :
    (checkRead s.base n.val = none ∧
      t = (s.setDisp (s.drawing x y n).1).setReg vf (collisionFlag (s.drawing x y n).2)) ∨
    (∃ c a, checkRead s.base n.val = some (c, a) ∧ t = takeFault c a (s.pc - 2) s) :=
  guarded_cases (k := fun s => (s.setDisp (s.drawing x y n).1).setReg vf (collisionFlag (s.drawing x y n).2)) h

/-- What an instruction's checks can raise: a StackFault, or the fault of a check of a range at I. -/
def FaultRaised (s : State) (c : FaultCause) (a : Word) : Prop :=
  (∃ k, c = .stackFault k ∧ a = 0) ∨ (∃ n, checkRead s.base n = some (c, a)) ∨ (∃ n, checkWrite s.base n = some (c, a))

theorem FaultRaised.cause_ne_none {s : State} {c : FaultCause} {a : Word} (h : FaultRaised s c a) : c ≠ .none := by
  obtain ⟨k, rfl, -⟩ | ⟨n, hc⟩ | ⟨n, hc⟩ := h
  · simp
  · exact checkRead_cause hc
  · exact checkWrite_cause hc

/-- Every instruction takes a fault its checks raise and does nothing else, or completes and writes its own parts only
(`10_state.md` R35; `60_exceptions.md` R126, R128). -/
theorem exec_faults_or_completes {i : Instr} {s t : State} (h : exec i s = .next t) :
    (∃ c a, FaultRaised s c a ∧ t = takeFault c a (s.pc - 2) s) ∨ KeptExcept (writtenParts i) s t := by
  cases i with
  | ldi x _ | addi x _ | mov x _ | or x _ | and x _ | xor x _ | rnd x _ | lddt x =>
    cases h; exact .inr (s.setReg_keptExcept _ _)
  | add | sub | shr | subn | shl => cases h; exact .inr (s.setRegFlag_keptExcept _ _ _)
  | scd | cls | scr | scl => cases h; exact .inr (s.setDisp_keptExcept _)
  | sei | snei | ser | sner | skp | sknp => cases h; exact .inr (s.skipIf_keptExcept _)
  | jp | jpoff => cases h; exact .inr (s.setPc_keptExcept _)
  | ldidx | font | bigfont => cases h; exact .inr (s.setIndex_keptExcept _)
  | exit | lores | hires | stdt | stst | strpl | ldrpl =>
    cases h; exact .inr (by simp [keptExcept_iff, writtenParts, State.reg])
  | addidx x =>
    cases h; exact .inr ((s.setIndex_keptExcept _).trans (State.setReg_keptExcept _ _ _))
  | waitk x =>
    cases h; right; split
    · exact (s.setReg_keptExcept _ _).mono (by simp [writtenParts])
    · exact (s.setPc_keptExcept _).mono (by simp [writtenParts])
  | call nnn =>
    obtain ⟨_, rfl⟩ | ⟨_, rfl⟩ := exec_call_cases h
    · exact .inr (((stack_keptExcept s _ _).trans (State.setPc_keptExcept _ _)).mono (by simp [writtenParts]))
    · exact .inl ⟨_, _, .inl ⟨_, rfl, rfl⟩, rfl⟩
  | ret =>
    obtain ⟨_, rfl⟩ | ⟨_, rfl⟩ := exec_ret_cases h
    · exact .inr (((sp_keptExcept s _).trans (State.setPc_keptExcept _ _)).mono (by simp [writtenParts]))
    · exact .inl ⟨_, _, .inl ⟨_, rfl, rfl⟩, rfl⟩
  | bcd x =>
    obtain ⟨_, rfl⟩ | ⟨c, a, hc, rfl⟩ := exec_bcd_cases h
    · exact .inr (mem_keptExcept s _)
    · exact .inl ⟨c, a, .inr (.inr ⟨_, hc⟩), rfl⟩
  | stm x =>
    obtain ⟨_, rfl⟩ | ⟨c, a, hc, rfl⟩ := exec_stm_cases h
    · exact .inr ((mem_keptExcept s _).trans (State.bumpIndex_keptExcept _ x))
    · exact .inl ⟨c, a, .inr (.inr ⟨_, hc⟩), rfl⟩
  | ldm x =>
    obtain ⟨_, rfl⟩ | ⟨c, a, hc, rfl⟩ := exec_ldm_cases h
    · exact .inr ((s.loadRegs_keptExcept x _).trans (State.bumpIndex_keptExcept _ x))
    · exact .inl ⟨c, a, .inr (.inl ⟨_, hc⟩), rfl⟩
  | drw x y n =>
    obtain ⟨_, rfl⟩ | ⟨c, a, hc, rfl⟩ := exec_drw_cases h
    · exact .inr ((s.setDisp_keptExcept _).trans (State.setReg_keptExcept _ _ _))
    · exact .inl ⟨c, a, .inr (.inl ⟨_, hc⟩), rfl⟩

/-- The frame of an instruction, whether or not it takes a fault. -/
theorem exec_keptExcept {i : Instr} {s t : State} (h : exec i s = .next t) :
    KeptExcept (writtenParts i ++ [.pc, .fault, .report]) s t := by
  obtain ⟨c, a, -, rfl⟩ | hk := exec_faults_or_completes h
  · exact (takeFault_kept c a _ s).mono fun p hp => List.mem_append_right _ hp
  · exact hk.mono fun p hp => List.mem_append_left _ hp

/-- Settles O19: an instruction that recorded no fault completed, and then its frame is that of its own parts. -/
theorem instructionsWriteOnlyTheirParts : Obligations.InstructionsWriteOnlyTheirParts := by
  intro i s t h
  refine ⟨exec_keptExcept h, fun hft hnone => ?_⟩
  obtain ⟨c, a, hc, rfl⟩ | hk := exec_faults_or_completes h
  · have hcause : c = s.fault.cause := congrArg FaultReg.cause hft
    exact absurd (hcause.trans hnone) hc.cause_ne_none
  · exact hk

/-- Settles O34: the two full-stack and empty-stack equations of `exec`, with the frame of fault entry. -/
theorem stackFaultsChangeOnlyFault : Obligations.StackFaultsChangeOnlyFault := fun nnn _ =>
  ⟨fun h => ⟨_, exec_call_of_full nnn h, rfl, rfl, rfl, takeFault_kept _ _ _ _⟩,
    fun h => ⟨_, exec_ret_of_empty h, rfl, rfl, rfl, takeFault_kept _ _ _ _⟩⟩

end Sys2Proof.Machine
end

section
/-! PROOFS. What the instructions do to the registers, VF, DIRTY and EXIT, and what every step leaves of QUIRKS and the sticky
flags (`10_state.md` R13, R14, R28 to R30). -/

namespace Sys2Proof.Machine

/-- Settles O20: the instructions that do not write the registers keep them by `exec_keptExcept`; each of the others is read
off its own register writes. -/
theorem registersChangeOnlyAsNamed : Obligations.RegistersChangeOnlyAsNamed := by
  intro i s t r h hres hflag
  cases i with
  | ldi | addi | mov | or | and | xor | rnd | lddt =>
    cases h
    rw [State.reg_setReg, if_neg (of_decide_eq_false hres)]
  | add | sub | shr | subn | shl =>
    cases h
    rw [State.reg_setRegFlag, if_neg (hflag rfl), if_neg (of_decide_eq_false hres)]
  | addidx x => cases h; rw [State.reg_setReg, if_neg (hflag rfl), State.reg_setIndex]
  | drw x y n =>
    obtain ⟨-, rfl⟩ | ⟨_, _, -, rfl⟩ := exec_drw_cases h
    · rw [State.reg_setReg, if_neg (hflag rfl), State.reg_setDisp]
    · rfl
  | waitk x =>
    cases h; split
    · rw [State.reg_setReg, if_neg (of_decide_eq_false hres)]
    · rfl
  | ldm x =>
    obtain ⟨-, rfl⟩ | ⟨_, _, -, rfl⟩ := exec_ldm_cases h
    · rw [State.reg_bumpIndex, State.reg_loadRegs, if_neg (of_decide_eq_false hres)]
    · rfl
  | ldrpl x =>
    cases h
    rw [State.reg_ofFn, dif_neg fun hk => of_decide_eq_false hres hk.1]; rfl
  | _ => exact exec_keptExcept h .v (by simp [writtenParts]) r

theorem indexFlag_writeBoth_zero_or_one (sum : Nat) (old : Byte) :
    indexFlag .writeBoth sum old = 0 ∨ indexFlag .writeBoth sum old = 1 := by
  rw [indexFlag_writeBoth]; split <;> simp

/-- Settles O21: the flag is written last, over the result when X = F, and every flag computation gives 0 or 1. -/
theorem flagIsZeroOrOne : Obligations.FlagIsZeroOrOne := by
  intro i s t hi _ h ht
  cases i with
  | add | sub | shr | subn | shl =>
    cases h; rw [State.reg_setRegFlag, if_pos rfl]; exact flagByte_zero_or_one _
  | addidx x => cases h; rw [State.reg_setReg, if_pos rfl]; exact indexFlag_writeBoth_zero_or_one _ _
  | drw x y n =>
    obtain ⟨-, rfl⟩ | ⟨c, a, hc, rfl⟩ := exec_drw_cases h
    · rw [State.reg_setReg, if_pos rfl]; exact flagByte_zero_or_one _
    · exact absurd ht (checkRead_cause hc)
  | _ => cases hi

/-- An instruction sets EXIT if it is 00FD, and otherwise leaves it. -/
theorem exec_exit {i : Instr} {s t : State} (h : exec i s = .next t) : t.exit = (s.exit || decide (i = .exit)) := by
  cases i with
  | exit => cases h; simp
  | _ => simpa [Kept] using exec_keptExcept h .exit (by simp [writtenParts])

/-- An instruction that takes a fault leaves DIRTY; one that completes sets it if it writes the display (`44_display.md`
R110). -/
theorem exec_dirty {i : Instr} {s t : State} (h : exec i s = .next t) :
    (t.fault.cause ≠ .none ∧ t.dirty = s.dirty) ∨ t.dirty = (s.dirty || setsDirty i) := by
  cases i with
  | scd | cls | scr | scl => cases h; simp [setsDirty]
  | drw x y n =>
    obtain ⟨-, rfl⟩ | ⟨_, _, hc, rfl⟩ := exec_drw_cases h
    · simp [setsDirty]
    · exact .inl ⟨checkRead_cause hc, rfl⟩
  | _ => exact .inr (by simpa [Kept, setsDirty] using exec_keptExcept h .dirty (by simp [writtenParts]))

theorem quirks_tickPeriod_not_written (i : Instr) :
    .quirks ∉ writtenParts i ++ [.pc, .fault, .report] ∧ .tickPeriod ∉ writtenParts i ++ [.pc, .fault, .report] := by
  cases i <;> simp [writtenParts]

/-- Settles O23: only an instruction can touch these parts, and it keeps or sets them. -/
theorem quirksImmutableExitAndDirtySticky : Obligations.QuirksImmutableExitAndDirtySticky := by
  intro s t h
  obtain ⟨-, hs⟩ | ⟨-, -, hs⟩ | ⟨w, e, -, -, -, hs⟩ | ⟨w, i, -, -, -, hs⟩ := step_cases s <;> rw [hs] at h
  case inr.inr.inr =>
    obtain ⟨u, hu, rfl⟩ := mapNext_eq_next h
    have hk := exec_keptExcept hu
    obtain ⟨hq, hp⟩ := quirks_tickPeriod_not_written i
    refine ⟨?_, ?_, fun he => ?_, fun hd => ?_⟩
    · simpa [Kept] using hk .quirks hq
    · simpa [Kept] using hk .tickPeriod hp
    · simp [exec_exit hu, he]
    · rcases exec_dirty hu with ⟨-, hd'⟩ | hd' <;> simp [hd', hd]
  all_goals cases h; simp

end Sys2Proof.Machine
end

section
/-! PROOFS. Every step keeps the state's invariant: the updates around an instruction, then an instruction clause by clause
(`10_state.md` R16, R18; `20_memory.md` R37, R45; `60_exceptions.md` R122, R128, R131). -/

namespace Sys2Proof.Machine

/-! ### The invariant under the updates around an instruction -/

/-- The invariant speaks of memory, I, PC, the stack, FAULT and the report only, and a report may be withdrawn. -/
theorem State.Inv.of_eq {s t : State} (h : s.Inv) (hm : t.mem = s.mem) (hi : t.i = s.i) (hp : t.pc = s.pc)
    (hs : t.stack = s.stack) (hf : t.fault = s.fault) (hr : ∀ w, t.report = some w → s.report = some w) : t.Inv where
  memory := by rw [hm]; exact h.memory
  font := by rw [hm]; exact h.font
  index := by rw [hi]; exact h.index
  pcBound := by rw [hp]; exact h.pcBound
  returns := by rw [hs]; exact h.returns
  faultPc := by rw [hf, hp]; exact h.faultPc
  faultAddr := by rw [hf]; exact h.faultAddr
  report := by rw [hf]; exact fun w hw => h.report w (hr w hw)

theorem State.Inv.presentNext {s : State} (h : s.Inv) : s.presentNext.Inv :=
  h.of_eq (by simp) (by simp) (by simp) (by simp) (by simp) (by simp)

theorem State.Inv.clearReport {s : State} (h : s.Inv) : State.Inv { s with report := none } :=
  h.of_eq rfl rfl rfl rfl rfl (by simp)

theorem State.Inv.beginStep {s : State} (h : s.Inv) : s.beginStep.Inv := h.of_eq rfl rfl rfl rfl rfl (by simp)

/-- PC may move within its bound while no fault is recorded. -/
theorem State.Inv.advance {s : State} (h : s.Inv) (hf : s.fault.cause = .none) (hp : s.pc.toNat ≤ 0x0FFE) :
    s.advance.Inv where
  memory := h.memory
  font := h.font
  index := h.index
  pcBound := by rw [State.advance_pc]; bv_omega
  returns := h.returns
  faultPc := ⟨h.faultPc.1, fun hn => absurd hf hn⟩
  faultAddr := h.faultAddr
  report := h.report

theorem State.Inv.reportWord {s : State} (h : s.Inv) (hf : s.fault.cause = .none) {w : Word}
    (hd : decodeWord w = .error (.unrecognized w)) : (reportWord w s).Inv where
  memory := h.memory
  font := h.font
  index := h.index
  pcBound := h.pcBound
  returns := h.returns
  faultPc := h.faultPc
  faultAddr := h.faultAddr
  report := by rintro _ ⟨⟩; exact ⟨hf, hd⟩

/-- Fault entry records the address it goes back to, and no report (`60_exceptions.md` R128). -/
theorem State.Inv.takeFault {s : State} (h : s.Inv) {c : FaultCause} {a p : Word} (hc : c ≠ .none)
    (hp : p.toNat ≤ 0x10FE) (ha : FaultReg.addrMatches ⟨c, p, a⟩) : (takeFault c a p s).Inv where
  memory := h.memory
  font := h.font
  index := h.index
  pcBound := hp
  returns := h.returns
  faultPc := ⟨fun hn => absurd hn hc, fun _ => rfl⟩
  faultAddr := ha
  report := by simp

/-- FAULT_ADDR of a fault an instruction raises, with I in memory (`60_exceptions.md` R122). -/
theorem FaultRaised.addrMatches {s : State} (hi : s.i.toNat ≤ 0x0FFF) {c : FaultCause} {a : Word}
    (h : FaultRaised s c a) (p : Word) : FaultReg.addrMatches ⟨c, p, a⟩ := by
  have hb : s.base ≤ 0x0FFF := hi
  obtain ⟨k, rfl, rfl⟩ | ⟨n, hc⟩ | ⟨n, hc⟩ := h
  · rfl
  · obtain ⟨h1, h2⟩ : 0 < n ∧ 0x1000 < s.base + n := by
      by_contra hn
      rw [checkRead_eq_none.2 (by omega)] at hc
      cases hc
    rw [checkRead_eq_some h1 h2] at hc
    cases hc; rfl
  · obtain ⟨-, rfl, rfl⟩ | ⟨-, -, hf, rfl, rfl⟩ := checkWrite_eq_some hc
    · rw [max_eq_right (by omega)]; rfl
    · simp only [FaultReg.addrMatches, BitVec.toNat_ofNat]; omega

/-! ### The invariant's clauses under an instruction -/

/-- The only write an instruction makes to memory is a checked store at I. -/
theorem exec_mem {i : Instr} {s t : State} (h : exec i s = .next t) :
    t.mem = s.mem ∨
      ∃ bs, 0 < bs.length ∧ checkWrite s.base bs.length = none ∧ t.mem = s.mem.writeBytes s.base bs := by
  cases i with
  | bcd x =>
    obtain ⟨hc, rfl⟩ | ⟨_, _, -, rfl⟩ := exec_bcd_cases h
    · exact .inr ⟨bcdDigits (s.reg x), by rw [bcdDigits_length]; omega, hc, rfl⟩
    · exact .inl rfl
  | stm x =>
    obtain ⟨hc, rfl⟩ | ⟨_, _, -, rfl⟩ := exec_stm_cases h
    · rw [← s.regsUpTo_length x] at hc
      exact .inr ⟨s.regsUpTo x, by rw [State.regsUpTo_length]; omega, hc, rfl⟩
    · exact .inl rfl
  | ldm x => obtain ⟨-, rfl⟩ | ⟨_, _, -, rfl⟩ := exec_ldm_cases h <;> exact .inl rfl
  | drw x y n => obtain ⟨-, rfl⟩ | ⟨_, _, -, rfl⟩ := exec_drw_cases h <;> exact .inl rfl
  | call nnn => obtain ⟨_, rfl⟩ | ⟨-, rfl⟩ := exec_call_cases h <;> exact .inl rfl
  | ret => obtain ⟨_, rfl⟩ | ⟨-, rfl⟩ := exec_ret_cases h <;> exact .inl rfl
  | waitk x => cases h; split <;> exact .inl rfl
  | _ => cases h; exact .inl (by simp)

theorem exec_mem_wf {i : Instr} {s t : State} (hs : s.mem.wf = true) (h : exec i s = .next t) : t.mem.wf = true := by
  obtain hm | ⟨bs, h0, hc, hm⟩ := exec_mem h <;> rw [hm]
  · exact hs
  · exact Memory.wf_writeBytes bs hs ((checkWrite_eq_none h0).1 hc).1

/-- No instruction writes the font region: its stores are checked (`20_memory.md` R45). -/
theorem exec_mem_read_font {i : Instr} {s t : State} (h : exec i s = .next t) {a : Nat} (h1 : 0x050 ≤ a)
    (h2 : a ≤ 0x13F) : t.mem.read a = s.mem.read a := by
  obtain hm | ⟨bs, h0, hc, hm⟩ := exec_mem h <;> rw [hm]
  have hmiss := ((checkWrite_eq_none h0).1 hc).2
  exact Memory.read_writeBytes_other bs s.mem s.base a (by omega)

theorem State.bumpIndex_toNat_le {s : State} (hs : s.i.toNat ≤ 0x0FFF) (x : Reg) :
    (s.bumpIndex x).i.toNat ≤ 0x0FFF := by
  rw [State.bumpIndex_toNat]; split <;> omega

/-- I stays in memory (`10_state.md` R18). -/
theorem exec_index_le {i : Instr} {s t : State} (hs : s.i.toNat ≤ 0x0FFF) (h : exec i s = .next t) :
    t.i.toNat ≤ 0x0FFF := by
  cases i with
  | ldidx nnn => cases h; rw [State.setIndex_i, zextAddr_toNat]; omega
  | addidx x => cases h; rw [State.setReg_i, State.setIndex_i, BitVec.toNat_ofNat]; omega
  | font x => cases h; rw [State.setIndex_i, fx29LargePath, fontAddress_large_toNat]; split <;> omega
  | bigfont x => cases h; rw [State.setIndex_i, largeGlyph_toNat (s.reg x).isLt]; omega
  | stm x =>
    obtain ⟨-, rfl⟩ | ⟨_, _, -, rfl⟩ := exec_stm_cases h
    · exact State.bumpIndex_toNat_le hs x
    · exact hs
  | ldm x =>
    obtain ⟨-, rfl⟩ | ⟨_, _, -, rfl⟩ := exec_ldm_cases h
    · exact State.bumpIndex_toNat_le (by rwa [State.loadRegs_i]) x
    · exact hs
  | _ =>
    have hk : t.i = s.i := exec_keptExcept h .i (by simp [writtenParts])
    rwa [hk]

theorem State.skipIf_pc_toNat_le {s : State} (hp : s.pc.toNat ≤ 0x1000) (c : Bool) :
    (s.skipIf c).pc.toNat ≤ 0x10FE := by
  rw [State.skipIf_pc]; split <;> bv_omega

/-- PC after an instruction run at an address it can be fetched from (`10_state.md` R16). -/
theorem exec_pc_le {i : Instr} {s t : State} (hr : ∀ k : Fin 16, s.stack[k].toNat ≤ 0x1000) (hp : 2 ≤ s.pc.toNat)
    (hp' : s.pc.toNat ≤ 0x1000) (h : exec i s = .next t) : t.pc.toNat ≤ 0x10FE := by
  have hback : (s.pc - 2).toNat ≤ 0x10FE := by bv_omega
  cases i with
  | sei | snei | ser | sner | skp | sknp => cases h; exact State.skipIf_pc_toNat_le hp' _
  | jp nnn => cases h; rw [State.setPc_pc, zextAddr_toNat]; omega
  | jpoff nnn => cases h; rw [State.setPc_pc, jumpTarget_toNat]; omega
  | waitk x =>
    cases h; split
    · rw [State.setReg_pc]; omega
    · exact hback
  | call nnn =>
    obtain ⟨_, rfl⟩ | ⟨-, rfl⟩ := exec_call_cases h
    · rw [State.setPc_pc, zextAddr_toNat]; omega
    · exact hback
  | ret =>
    obtain ⟨hsp, rfl⟩ | ⟨-, rfl⟩ := exec_ret_cases h
    · have := hr ⟨s.sp.val - 1, by omega⟩
      rw [State.setPc_pc]; exact Nat.le_trans this (by decide)
    · exact hback
  | _ =>
    obtain ⟨_, _, -, rfl⟩ | hk := exec_faults_or_completes h
    · exact hback
    · have hpc : t.pc = s.pc := hk .pc (by simp [writtenParts])
      rw [hpc]; omega

/-- A call pushes an address of memory or its end (`10_state.md` R16). -/
theorem exec_returns_le {i : Instr} {s t : State} (hr : ∀ k : Fin 16, s.stack[k].toNat ≤ 0x1000)
    (hp : s.pc.toNat ≤ 0x1000) (h : exec i s = .next t) (k : Fin 16) : t.stack[k].toNat ≤ 0x1000 := by
  cases i with
  | call nnn =>
    obtain ⟨_, rfl⟩ | ⟨-, rfl⟩ := exec_call_cases h
    · simp only [State.setPc_stack, Fin.getElem_fin, Vector.getElem_set]
      split
      · exact hp
      · exact hr k
    · exact hr k
  | _ =>
    have hk : t.stack[k] = s.stack[k] := exec_keptExcept h .stack (by simp [writtenParts]) k
    rw [hk]; exact hr k

theorem fault_report_not_written (i : Instr) : .fault ∉ writtenParts i ∧ .report ∉ writtenParts i := by
  cases i <;> simp [writtenParts]

/-- An instruction run at an address it can be fetched from keeps the invariant. -/
theorem State.Inv.exec {i : Instr} {s t : State} (hs : s.Inv) (hf : s.fault.cause = .none) (hp : 2 ≤ s.pc.toNat)
    (hp' : s.pc.toNat ≤ 0x1000) (h : exec i s = .next t) : t.Inv := by
  obtain ⟨c, a, hc, rfl⟩ | hk := exec_faults_or_completes h
  case inl => exact hs.takeFault hc.cause_ne_none (by bv_omega) (hc.addrMatches hs.index _)
  case inr =>
    obtain ⟨hnf, hnr⟩ := fault_report_not_written i
    have hft : t.fault = s.fault := hk .fault hnf
    have hrt : t.report = s.report := hk .report hnr
    exact {
      memory := exec_mem_wf hs.memory h
      font := fun a h1 h2 => (exec_mem_read_font h h1 h2).trans (hs.font a h1 h2)
      index := exec_index_le hs.index h
      pcBound := exec_pc_le hs.returns hp hp' h
      returns := exec_returns_le hs.returns hp' h
      faultPc := by rw [hft]; exact ⟨hs.faultPc.1, fun hn => absurd hf hn⟩
      faultAddr := by rw [hft]; exact hs.faultAddr
      report := by rw [hft, hrt]; exact hs.report }

/-- Settles O14: the four kinds of step, each by the lemma about its update. -/
theorem stepKeepsStateInvariant : Obligations.StepKeepsStateInvariant := by
  intro s t hs h
  obtain ⟨-, hst⟩ | ⟨-, hp, hst⟩ | ⟨w, e, hf, hw, hd, hst⟩ | ⟨w, i, hf, hw, -, hst⟩ := step_cases s <;> rw [hst] at h
  · cases h; exact hs.clearReport.presentNext
  · cases h
    exact (hs.beginStep.takeFault (c := .memoryFault .fetch) (by simp) hs.pcBound ⟨rfl, hp⟩).presentNext
  · cases h
    obtain ⟨hpc, -⟩ := fetch16_eq_some.1 hw
    obtain ⟨rfl, -⟩ := decodeWord_eq_error.1 hd
    exact ((hs.beginStep.advance hf hpc).reportWord hf hd).presentNext
  · obtain ⟨u, hu, rfl⟩ := mapNext_eq_next h
    obtain ⟨hpc, -⟩ := fetch16_eq_some.1 hw
    have hadv : s.beginStep.advance.pc.toNat = s.pc.toNat + 2 := by
      rw [State.advance_pc, State.beginStep_pc]; bv_omega
    exact ((hs.beginStep.advance hf hpc).exec hf (by omega) (by omega) hu).presentNext

end Sys2Proof.Machine
end

section
/-! PROOFS. The fault of the fetch, and the font region under every step (`20_memory.md` R42, R45). -/

namespace Sys2Proof.Machine

/-- With no fault recorded, a fetch above 0x0FFE is the whole step (`20_memory.md` R42). -/
theorem step_of_fetch_above {s : State} (hf : s.fault.cause = .none) (hp : 0x0FFE < s.pc.toNat) :
    step s = .next (State.presentNext (takeFault (.memoryFault .fetch) s.pc s.pc s.beginStep)) := by
  simp [step, (State.not_halted_iff s).2 hf, fetch16_eq_none.2 hp]

/-- A fault recorded at the address the step began at keeps PC as well (`60_exceptions.md` R128). -/
theorem takeFault_beginStep_keptExcept (c : FaultCause) (a : Word) (s : State) :
    KeptExcept ([.fault, .report] ++ timerParts) s (takeFault c a s.pc s.beginStep) := by
  intro p hp
  by_cases hpc : p = .pc
  · subst hpc; rfl
  · exact (beginStep_kept s).trans (takeFault_kept c a s.pc s.beginStep) p (by simp_all)

/-- Settles O9: the step is the timer phase, the fetch's fault entry and the presentation of inputs, each with its frame. -/
theorem fetchAboveMemoryFaults : Obligations.FetchAboveMemoryFaults := by
  intro s hf hp
  refine ⟨_, step_of_fetch_above hf hp, ?fault, ?report, ?tick, ?frame⟩
  case fault => simp
  case report => simp
  case tick => exact ticked_of_beginStep (by simp) (by simp) (by simp)
  case frame => exact (takeFault_beginStep_keptExcept _ _ s).trans (State.presentNext_keptExcept _)

/-- Settles O17: a step writes memory only through its instruction, and an instruction keeps the font region
(`exec_mem_read_font`). -/
theorem noStepWritesTheFontRegion : Obligations.NoStepWritesTheFontRegion := by
  intro s t h a h1 h2
  obtain ⟨-, hs⟩ | ⟨-, -, hs⟩ | ⟨w, e, -, -, -, hs⟩ | ⟨w, i, -, -, -, hs⟩ := step_cases s <;> rw [hs] at h
  case inr.inr.inr =>
    obtain ⟨u, hu, rfl⟩ := mapNext_eq_next h
    rw [State.presentNext_mem]
    exact exec_mem_read_font hu h1 h2
  all_goals cases h; simp

end Sys2Proof.Machine
end

section
/-! PROOFS. Decoding an encoded instruction (`30_encoding.md` R53, R54, R56). -/

namespace Sys2Proof

/-- Every instruction has its row of the table. -/
theorem Laws.TableRow.all : ∀ i : Instr, Statement i
  | .scd n => scd n
  | .cls => cls
  | .ret => ret
  | .scr => scr
  | .scl => scl
  | .exit => exit
  | .lores => lores
  | .hires => hires
  | .jp nnn => jp nnn
  | .call nnn => call nnn
  | .sei x nn => sei x nn
  | .snei x nn => snei x nn
  | .ser x y => ser x y
  | .ldi x nn => ldi x nn
  | .addi x nn => addi x nn
  | .mov x y => mov x y
  | .or x y => or x y
  | .and x y => and x y
  | .xor x y => xor x y
  | .add x y => add x y
  | .sub x y => sub x y
  | .shr x y => shr x y
  | .subn x y => subn x y
  | .shl x y => shl x y
  | .sner x y => sner x y
  | .ldidx nnn => ldidx nnn
  | .jpoff nnn => jpoff nnn
  | .rnd x nn => rnd x nn
  | .drw x y n => drw x y n
  | .skp x => skp x
  | .sknp x => sknp x
  | .lddt x => lddt x
  | .waitk x => waitk x
  | .stdt x => stdt x
  | .stst x => stst x
  | .addidx x => addidx x
  | .font x => font x
  | .bigfont x => bigfont x
  | .bcd x => bcd x
  | .stm x => stm x
  | .ldm x => ldm x
  | .strpl x => strpl x
  | .ldrpl x => ldrpl x

theorem decodeWord_encode (i : Instr) : decodeWord (encode i) = .ok i := by
  obtain ⟨r, hr, hsel, hbuild⟩ := Laws.TableRow.all i
  rw [decodeWord_of_row hr hsel, hbuild]

/-- A word is read back from its two bytes, high byte first (`20_memory.md` R42). -/
theorem wordOfBytes_extractLsb' (w : Word) : wordOfBytes (w.extractLsb' 8 8) (w.extractLsb' 0 8) = w :=
  (BitVec.extractLsb'_append_extractLsb'_eq_extractLsb' rfl).trans BitVec.extractLsb'_eq_self

theorem decode_encodeBytes_append (i : Instr) (rest : List Byte) : decode (encodeBytes i ++ rest) = .ok (i, rest) := by
  simp [encodeBytes, decode, wordOfBytes_extractLsb', decodeWord_encode, Except.map]

/-- Settles O25: the word is read back from its bytes, and the instruction's own row builds it from the word. -/
theorem decodeOfEncodeIsTheInstruction : Obligations.DecodeOfEncodeIsTheInstruction :=
  fun i rest _ => decode_encodeBytes_append i rest

/-- Settles O28: seven of the words are encodings, written out; no row selects the eighth. -/
theorem sampleWordsDecodeRight : Obligations.SampleWordsDecodeRight :=
  ⟨decodeWord_encode (.add 3 10), decodeWord_encode (.jp 0x234), decodeWord_encode (.jpoff 0x3A0),
    decodeWord_encode (.stm 2), decodeWord_encode (.drw 1 2 5), decodeWord_encode (.scd 3), decodeWord_encode (.skp 1),
    by decide⟩

end Sys2Proof
end

section
/-! PROOFS. Encoding what a word decodes to: a word is its fields put together, and the fields a row's mask covers are those of
its match word (`30_encoding.md` R54, R56, R57). -/

namespace Sys2Proof

/-! ### A word is its fields, put together -/

/-- The leading nibble OP = `instr[15:12]` (`30_encoding.md` R53). -/
def fieldOp (w : Word) : BitVec 4 := w.extractLsb' 12 4

/-- The lowest nibble `instr[3:0]` where it is fixed: k of format XYk (`30_encoding.md` R54). -/
def fieldK (w : Word) : BitVec 4 := w.extractLsb' 0 4

section
variable (w : Word)

theorem formatZN_fields : formatZN (w.extractLsb' 4 12) (fieldN w) = w :=
  (BitVec.extractLsb'_append_extractLsb'_eq_extractLsb' rfl).trans BitVec.extractLsb'_eq_self

theorem formatNNN_fields : formatNNN (fieldOp w) (fieldNNN w) = w :=
  (BitVec.extractLsb'_append_extractLsb'_eq_extractLsb' rfl).trans BitVec.extractLsb'_eq_self

theorem formatXNN_fields : formatXNN (fieldOp w) (fieldX w) (fieldNN w) = w :=
  (congrArg (formatNNN (fieldOp w)) (BitVec.extractLsb'_append_extractLsb'_eq_extractLsb' rfl)).trans (formatNNN_fields w)

theorem formatXYN_fields : formatXYN (fieldOp w) (fieldX w) (fieldY w) (fieldK w) = w :=
  (congrArg (formatXNN (fieldOp w) (fieldX w)) (BitVec.extractLsb'_append_extractLsb'_eq_extractLsb' rfl)).trans
    (formatXNN_fields w)

end

/-! ### A word whose fixed bits are those of the match word `v` -/

/-- A field that the mask covers has the match word's value. -/
theorem extractLsb'_eq_of_and {w m v : Word} {start len : Nat} (h : w &&& m = v)
    (hm : m.extractLsb' start len = BitVec.allOnes len) : w.extractLsb' start len = v.extractLsb' start len := by
  rw [← h, BitVec.extractLsb'_and, hm, BitVec.and_allOnes]

section
variable {v : Word} (w : Word)

theorem formatZN_of_and (h : w &&& 0xFFF0 = v) : formatZN (v.extractLsb' 4 12) (fieldN w) = w := by
  rw [← extractLsb'_eq_of_and h (by decide), formatZN_fields]

theorem fieldOp_of_and (h : w &&& 0xF000 = v) : fieldOp v = fieldOp w :=
  (extractLsb'_eq_of_and h (by decide)).symm

theorem formatNNN_of_and (h : w &&& 0xF000 = v) : formatNNN (fieldOp v) (fieldNNN w) = w := by
  rw [fieldOp_of_and w h, formatNNN_fields]

theorem formatXNN_of_and (h : w &&& 0xF000 = v) : formatXNN (fieldOp v) (fieldX w) (fieldNN w) = w := by
  rw [fieldOp_of_and w h, formatXNN_fields]

theorem formatXYN_of_and (h : w &&& 0xF000 = v) : formatXYN (fieldOp v) (fieldX w) (fieldY w) (fieldK w) = w := by
  rw [fieldOp_of_and w h, formatXYN_fields]

/-- Format Xkk: the low byte is fixed as well. -/
theorem formatXkk_of_and (h : w &&& 0xF0FF = v) : formatXNN (fieldOp v) (fieldX w) (fieldNN v) = w := by
  have hop : fieldOp w = fieldOp v := extractLsb'_eq_of_and h (by decide)
  have hkk : fieldNN w = fieldNN v := extractLsb'_eq_of_and h (by decide)
  rw [← hop, ← hkk, formatXNN_fields]

/-- Format XYk: the low nibble is fixed as well. -/
theorem formatXYk_of_and (h : w &&& 0xF00F = v) : formatXYN (fieldOp v) (fieldX w) (fieldY w) (fieldK v) = w := by
  have hop : fieldOp w = fieldOp v := extractLsb'_eq_of_and h (by decide)
  have hk : fieldK w = fieldK v := extractLsb'_eq_of_and h (by decide)
  rw [← hop, ← hk, formatXYN_fields]

/-- Format Z: the whole word is fixed. -/
theorem eq_of_and_FFFF (h : w &&& 0xFFFF = v) : v = w := h.symm.trans BitVec.and_allOnes

end

/-! ### The rows -/

/-- The row's `build` loses nothing: it reads operands whose encoding is the word it read them from. -/
def OpcodeRow.RoundTrips (r : OpcodeRow) : Prop := ∀ w : Word, w &&& r.mask = r.matchWord → encode (r.build w) = w

theorem displayRows_roundTrip : ∀ r ∈ displayRows, r.RoundTrips := by
  simp only [displayRows, List.forall_mem_cons]
  exact ⟨formatZN_of_and, eq_of_and_FFFF, eq_of_and_FFFF, eq_of_and_FFFF, eq_of_and_FFFF, eq_of_and_FFFF,
    formatXYN_of_and, List.forall_mem_nil _⟩

theorem controlRows_roundTrip : ∀ r ∈ controlRows, r.RoundTrips := by
  simp only [controlRows, List.forall_mem_cons]
  exact ⟨eq_of_and_FFFF, formatNNN_of_and, formatNNN_of_and, formatXNN_of_and, formatXNN_of_and, formatXYk_of_and,
    formatXYk_of_and, formatNNN_of_and, List.forall_mem_nil _⟩

theorem loadAluRows_roundTrip : ∀ r ∈ loadAluRows, r.RoundTrips := by
  simp only [loadAluRows, List.forall_mem_cons]
  exact ⟨formatXNN_of_and, formatXNN_of_and, formatXYk_of_and, formatXYk_of_and, formatXYk_of_and, formatXYk_of_and,
    formatXYk_of_and, formatXYk_of_and, formatXYk_of_and, formatXYk_of_and, formatXYk_of_and, formatXNN_of_and,
    List.forall_mem_nil _⟩

theorem indexRows_roundTrip : ∀ r ∈ indexRows, r.RoundTrips := by
  simp only [indexRows, List.forall_mem_cons]
  exact ⟨formatNNN_of_and, formatXkk_of_and, formatXkk_of_and, formatXkk_of_and, formatXkk_of_and, formatXkk_of_and,
    formatXkk_of_and, List.forall_mem_nil _⟩

theorem systemRows_roundTrip : ∀ r ∈ systemRows, r.RoundTrips := by
  simp only [systemRows, List.forall_mem_cons]
  exact ⟨formatXkk_of_and, formatXkk_of_and, formatXkk_of_and, formatXkk_of_and, formatXkk_of_and, formatXkk_of_and,
    formatXkk_of_and, formatXkk_of_and, eq_of_and_FFFF, List.forall_mem_nil _⟩

theorem opcodeTable_roundTrip : ∀ r ∈ opcodeTable, r.RoundTrips := by
  simp only [opcodeTable, List.forall_mem_append]
  exact ⟨displayRows_roundTrip, controlRows_roundTrip, loadAluRows_roundTrip, indexRows_roundTrip, systemRows_roundTrip⟩

/-- Settles O26: the row that decoded the word round-trips. -/
theorem encodeOfDecodeIsTheWord : Obligations.EncodeOfDecodeIsTheWord := by
  intro w i h
  obtain ⟨r, hr, hsel, rfl⟩ := decodeWord_eq_ok h
  exact ⟨opcodeTable_roundTrip r hr w (eq_of_beq hsel), wellFormed_all _⟩

end Sys2Proof
end

section
/-! PROOFS. The words no row of the table selects: each row's test as arithmetic on the word, leading nibble first
(`30_encoding.md` R57, R58). -/

namespace Sys2Proof

/-! ### The word cut by each mask, as a number -/

theorem formatZN_eq_ofNat (k : BitVec 12) (n : Count) : formatZN k n = BitVec.ofNat 16 (k.toNat * 16 + n.val) := by
  have := k.isLt
  apply BitVec.eq_of_toNat_eq
  rw [formatZN, BitVec.toNat_append, ← Nat.shiftLeft_add_eq_or_of_lt n.isLt, Nat.shiftLeft_eq, BitVec.toNat_ofNat]
  exact (Nat.mod_eq_of_lt (by omega)).symm

section
variable (w : Word)

theorem fieldOp_toNat : (fieldOp w).toNat = w.toNat / 4096 := by
  rw [fieldOp, BitVec.extractLsb'_toNat, Nat.shiftRight_eq_div_pow]; omega

theorem fieldNN_toNat : (fieldNN w).toNat = w.toNat % 256 := BitVec.extractLsb'_toNat 0 8 w

theorem fieldK_toNat : (fieldK w).toNat = w.toNat % 16 := BitVec.extractLsb'_toNat 0 4 w

theorem toNat_and_FFF0 : (w &&& 0xFFF0).toNat = w.toNat / 16 * 16 := by
  have hw : w &&& 0xFFF0 = formatZN (w.extractLsb' 4 12) 0 :=
    (congrArg (· &&& 0xFFF0) (formatZN_fields w)).symm.trans (formatZN_and _ _)
  rw [hw, formatZN_eq_ofNat, BitVec.extractLsb'_toNat, Nat.shiftRight_eq_div_pow, BitVec.toNat_ofNat, Fin.val_zero]
  omega

theorem toNat_and_F000 : (w &&& 0xF000).toNat = w.toNat / 4096 * 4096 := by
  have hw : w &&& 0xF000 = formatNNN (fieldOp w) 0#12 :=
    (congrArg (· &&& 0xF000) (formatNNN_fields w)).symm.trans (formatNNN_and _ _)
  rw [hw, formatNNN_eq_ofNat, fieldOp_toNat, BitVec.toNat_ofNat, BitVec.toNat_zero]
  omega

theorem toNat_and_F0FF : (w &&& 0xF0FF).toNat = w.toNat / 4096 * 4096 + w.toNat % 256 := by
  have hw : w &&& 0xF0FF = formatXNN (fieldOp w) 0 (fieldNN w) :=
    (congrArg (· &&& 0xF0FF) (formatXNN_fields w)).symm.trans
      ((formatXNN_and _ _ _ 0xFF).trans (congrArg (formatXNN _ 0) BitVec.and_allOnes))
  rw [hw, formatXNN_eq_ofNat, fieldOp_toNat, fieldNN_toNat, BitVec.toNat_ofNat, Fin.val_zero]
  omega

theorem toNat_and_F00F : (w &&& 0xF00F).toNat = w.toNat / 4096 * 4096 + w.toNat % 16 := by
  have hw : w &&& 0xF00F = formatXYN (fieldOp w) 0 0 (fieldK w) :=
    (congrArg (· &&& 0xF00F) (formatXYN_fields w)).symm.trans
      ((formatXYN_and _ _ _ _ 0xF).trans (congrArg (formatXYN _ 0 0) BitVec.and_allOnes))
  rw [hw, formatXYN_eq_ofNat, fieldOp_toNat, fieldK_toNat, BitVec.toNat_ofNat, Fin.val_zero]
  omega

/-! ### Each mask's test: the leading nibble, then the rest of what the format fixes -/

theorem and_FFFF_eq_iff (v : Word) : w &&& 0xFFFF = v ↔ w.toNat / 4096 = v.toNat / 4096 ∧ w.toNat = v.toNat := by
  rw [show w &&& 0xFFFF = w from BitVec.and_allOnes, ← BitVec.toNat_inj]; omega

theorem and_FFF0_eq_iff (v : Word) : w &&& 0xFFF0 = v ↔
    w.toNat / 4096 = v.toNat / 4096 ∧ w.toNat / 16 = v.toNat / 16 ∧ v.toNat % 16 = 0 := by
  rw [← BitVec.toNat_inj, toNat_and_FFF0]; omega

theorem and_F000_eq_iff (v : Word) : w &&& 0xF000 = v ↔ w.toNat / 4096 = v.toNat / 4096 ∧ v.toNat % 4096 = 0 := by
  rw [← BitVec.toNat_inj, toNat_and_F000]; omega

theorem and_F0FF_eq_iff (v : Word) : w &&& 0xF0FF = v ↔
    w.toNat / 4096 = v.toNat / 4096 ∧ w.toNat % 256 = v.toNat % 256 ∧ v.toNat / 256 % 16 = 0 := by
  rw [← BitVec.toNat_inj, toNat_and_F0FF]; omega

theorem and_F00F_eq_iff (v : Word) : w &&& 0xF00F = v ↔
    w.toNat / 4096 = v.toNat / 4096 ∧ w.toNat % 16 = v.toNat % 16 ∧ v.toNat / 16 % 256 = 0 := by
  rw [← BitVec.toNat_inj, toNat_and_F00F]; omega

end

/-- Settles O27: with every row's test put as arithmetic, the leading nibble leaves only its own rows, and what these ask of the
rest of the word is what the list of R58 denies. Under the nibble 8 the list names the low nibbles left over, and under 0 the
words 00CN as a range. -/
theorem unrecognizedWordsAreThoseListed : Obligations.UnrecognizedWordsAreThoseListed := by
  intro w
  refine ⟨?listed, ?onlyError⟩
  case onlyError =>
    rintro ⟨e, he⟩
    obtain ⟨rfl, -⟩ := decodeWord_eq_error.1 he
    exact he
  case listed =>
    have hop : w.toNat / 4096 < 16 := Nat.div_lt_of_lt_mul w.isLt
    rw [decodeWord_eq_error]
    simp only [true_and, opcodeTable, displayRows, controlRows, loadAluRows, indexRows, systemRows, List.forall_mem_append,
      List.forall_mem_cons, OpcodeRow.selects, beq_eq_false_iff_ne, ne_eq, and_FFF0_eq_iff, and_FFFF_eq_iff, and_F000_eq_iff,
      and_F0FF_eq_iff, and_F00F_eq_iff, BitVec.reduceToNat, Nat.reduceDiv, Nat.reduceMod]
    generalize w.toNat / 4096 = op at hop
    obtain rfl | ⟨h1, h7⟩ | rfl | ⟨h9, hE⟩ | rfl :
        op = 0 ∨ (1 ≤ op ∧ op ≤ 7) ∨ op = 8 ∨ (9 ≤ op ∧ op ≤ 0xE) ∨ op = 0xF := by omega
    · simp; omega
    · interval_cases op <;> simp
    · simp; omega
    · interval_cases op <;> simp
    · simp; tauto

end Sys2Proof
end

section
/-! PROOFS. The kinds of step, one equation each, and the parts of the state each kind keeps (`40_step_cycle.md` R64 to R71). -/

namespace Sys2Proof.Machine

/-! ### One equation per kind of step -/

theorem step_of_halted {s : State} (hf : s.fault.cause ≠ .none) :
    step s = .next (State.presentNext { s with report := none }) := by
  simp [step, (State.halted_iff s).2 hf]

theorem step_of_unrecognized {s : State} {w : Word} {e : DecodeError} (hf : s.fault.cause = .none)
    (hw : fetch16 s.mem s.pc = some w) (hd : decodeWord w = .error e) :
    step s = .next (State.presentNext (reportWord w s.beginStep.advance)) := by
  simp [step, (State.not_halted_iff s).2 hf, hw, hd]

theorem step_of_decoded {s : State} {w : Word} {i : Instr} (hf : s.fault.cause = .none)
    (hw : fetch16 s.mem s.pc = some w) (hd : decodeWord w = .ok i) :
    step s = mapNext State.presentNext (exec i s.beginStep.advance) := by
  simp [step, (State.not_halted_iff s).2 hf, hw, hd]

/-- Settles O10: the faults of the spec are next states, and every instruction answers one (`exec_next`). -/
theorem everyStepHasANextState : Obligations.EveryStepHasANextState := by
  intro s
  obtain ⟨-, hs⟩ | ⟨-, -, hs⟩ | ⟨_, _, -, -, -, hs⟩ | ⟨_, i, -, -, -, hs⟩ := step_cases s
  case inr.inr.inr =>
    obtain ⟨u, hu⟩ := exec_next i s.beginStep.advance
    exact ⟨u.presentNext, by rw [hs, hu, mapNext_next]⟩
  all_goals exact ⟨_, hs⟩

/-! ### The frames of the parts of a step -/

section
variable (s : State)

theorem State.clearReport_keptExcept : KeptExcept [.report] s { s with report := none } := by
  simp [keptExcept_iff, State.reg]

theorem State.advance_keptExcept : KeptExcept [.pc] s s.advance := by simp [keptExcept_iff]

theorem reportWord_keptExcept (w : Word) : KeptExcept [.report] s (reportWord w s) := by simp [keptExcept_iff]

end

/-- Settles O8: the report is cleared and the inputs are presented, and each has its frame. -/
theorem haltedStepChangesNothing : Obligations.HaltedStepChangesNothing := fun s hf =>
  ⟨_, step_of_halted hf, by simp, by simp, s.clearReport_keptExcept.trans (State.presentNext_keptExcept _)⟩

/-- Settles O7: the step is the timer phase, the advance of PC, the report and the presentation of inputs, each with its
frame. -/
theorem unrecognizedWordIsReportedAndSkipped : Obligations.UnrecognizedWordIsReportedAndSkipped := by
  rintro s w hf hp hw ⟨e, hd⟩
  refine ⟨_, step_of_unrecognized hf (fetch16_eq_some.2 ⟨hp, hw⟩) hd, ?report, ?pc, ?tick, ?frame⟩
  case report => simp
  case pc => simp
  case tick => exact ticked_of_beginStep (by simp) (by simp) (by simp)
  case frame =>
    exact ((((beginStep_kept s).trans (State.advance_keptExcept _)).trans (reportWord_keptExcept _ w)).trans
      (State.presentNext_keptExcept _)).mono (by simp)

/-! ### The timer phase as the spec writes it, and the decoded step -/

theorem decFloor_eq_ofNat (b : Byte) : decFloor b = BitVec.ofNat 8 (b.toNat - 1) := by
  rw [← decFloor_toNat, BitVec.ofNat_toNat, BitVec.setWidth_eq]

/-- Two bytes decode to an instruction, with none left, exactly when their word does. -/
theorem decode_pair_eq_ok {hi lo : Byte} {i : Instr} : decode [hi, lo] = .ok (i, []) ↔ decodeWord (hi ++ lo) = .ok i := by
  rw [decode, wordOfBytes]
  cases decodeWord (hi ++ lo) <;> simp [Except.map]

/-- Settles O5: the step of a decoded word, with the timer phase written out. -/
theorem stepRunsDecodedInstruction : Obligations.StepRunsDecodedInstruction := by
  intro s i hf hp _ hd
  rw [step_of_decoded hf (fetch16_eq_some.2 ⟨hp, rfl⟩) (decode_pair_eq_ok.1 hd)]
  simp only [State.advance, State.beginStep, State.timerPhase, State.tickDue, decide_eq_true_eq, decFloor_eq_ofNat]

/-! ### The timers over a step -/

/-- A part other than PC, FAULT, the report and the inputs is after a step as it was before it or as the timer phase left it,
unless the instruction fetched writes it. -/
theorem step_kept_or_written {s t : State} (h : step s = .next t) {p : Part} (hp : p ∉ [.pc, .fault, .report])
    (hin : p ∉ inputParts) :
    Kept s t p ∨ Kept s.beginStep t p ∨ ∃ i, fetch16 s.mem s.pc = some (encode i) ∧ p ∈ writtenParts i := by
  have hnext (u : State) : Kept u u.presentNext p := u.presentNext_keptExcept p hin
  have hadv : Kept s.beginStep s.beginStep.advance p := (State.advance_keptExcept _).mono (by simp) p hp
  obtain ⟨-, hs⟩ | ⟨-, -, hs⟩ | ⟨w, e, -, -, -, hs⟩ | ⟨w, i, -, hw, hd, hs⟩ := step_cases s <;> rw [hs] at h
  case inl =>
    cases h
    have hclear : Kept s { s with report := none } p := s.clearReport_keptExcept.mono (by simp) p hp
    exact .inl (hclear.trans (hnext _))
  case inr.inl =>
    cases h
    exact .inr (.inl ((takeFault_kept _ _ _ _ p hp).trans (hnext _)))
  case inr.inr.inl =>
    cases h
    have hreport : Kept s.beginStep.advance (reportWord w s.beginStep.advance) p :=
      (reportWord_keptExcept _ w).mono (by simp) p hp
    exact .inr (.inl ((hadv.trans hreport).trans (hnext _)))
  case inr.inr.inr =>
    obtain ⟨u, hu, rfl⟩ := mapNext_eq_next h
    by_cases hi : p ∈ writtenParts i
    · exact .inr (.inr ⟨i, by rw [hw, (encodeOfDecodeIsTheWord w i hd).1], hi⟩)
    · have hexec : Kept s.beginStep.advance u p := exec_keptExcept hu p (List.not_mem_append hi hp)
      exact .inr (.inl ((hadv.trans hexec).trans (hnext u)))

theorem eq_stdt_of_dt_mem {i : Instr} (h : .dt ∈ writtenParts i) : ∃ x, i = .stdt x := by
  cases i with
  | stdt x => exact ⟨x, rfl⟩
  | _ => simp [writtenParts] at h

theorem eq_stst_of_st_mem {i : Instr} (h : .st ∈ writtenParts i) : ∃ x, i = .stst x := by
  cases i with
  | stst x => exact ⟨x, rfl⟩
  | _ => simp [writtenParts] at h

/-- One decrement leaves 0 alone and takes one from any other byte. -/
theorem decFloor_eq_or_succ (b : Byte) : decFloor b = b ∨ (decFloor b).toNat + 1 = b.toNat := by
  rw [decFloor_toNat, ← BitVec.toNat_inj, decFloor_toNat]; omega

/-- At most one decrement, whatever the tick test says. -/
theorem tick_eq_or_succ (due : Bool) (b : Byte) :
    (if due then decFloor b else b) = b ∨ (if due then decFloor b else b).toNat + 1 = b.toNat := by
  cases due with
  | true => exact decFloor_eq_or_succ b
  | false => exact .inl rfl

/-- Settles O11: a timer the step's instruction does not set is as before the step or as the timer phase left it, and the timer
phase decrements once at most. -/
theorem timersFallByAtMostOneAStep : Obligations.TimersFallByAtMostOneAStep := by
  intro s t h
  constructor
  · intro hnot
    obtain hk | hk | ⟨i, hw, hi⟩ := step_kept_or_written h (p := .dt) (by decide) (by decide)
    · exact .inl hk
    · have ht : t.dt = s.beginStep.dt := hk
      rw [ht]; exact tick_eq_or_succ s.tickDue s.dt
    · obtain ⟨x, rfl⟩ := eq_stdt_of_dt_mem hi; exact absurd hw (hnot x)
  · intro hnot
    obtain hk | hk | ⟨i, hw, hi⟩ := step_kept_or_written h (p := .st) (by decide) (by decide)
    · exact .inl hk
    · have ht : t.st = s.beginStep.st := hk
      rw [ht]; exact tick_eq_or_succ s.tickDue s.st
    · obtain ⟨x, rfl⟩ := eq_stst_of_st_mem hi; exact absurd hw (hnot x)

end Sys2Proof.Machine
end

section
/-! PROOFS. The inputs an instruction reads: every shared operation commutes with the presentation of inputs
(`40_step_cycle.md` R68; `60_exceptions.md` R136). -/

namespace Sys2Proof.Machine

section
variable (s : State) (inp : StepInput)

/-- A guarded effect that commutes with the presentation of inputs does so whatever its check says. -/
theorem guarded_present (check : Option (FaultCause × Word)) {k : State → State}
    (hk : k (s.present inp) = (k s).present inp) :
    guarded check k (s.present inp) = mapNext (State.present inp) (guarded check k s) := by
  cases check with
  | none => exact congrArg Host.Outcome.next hk
  | some _ => rfl

/-- So does a store, when what follows it commutes. -/
theorem storeBytes_present (base : Nat) (bs : List Byte) {k : State → State}
    (hk : ∀ u : State, k (u.present inp) = (k u).present inp) :
    storeBytes base bs k (s.present inp) = mapNext (State.present inp) (storeBytes base bs k s) :=
  guarded_present s inp _ (hk { s with mem := s.mem.writeBytes base bs })

theorem exec_call_present (nnn : Addr12) :
    exec (.call nnn) (s.present inp) = mapNext (State.present inp) (exec (.call nnn) s) := by
  by_cases h : s.sp.val < 16
  · rw [exec_call_of_lt nnn h]; exact exec_call_of_lt (s := s.present inp) nnn h
  · have hfull : s.sp = 16 := Fin.ext (by omega)
    rw [exec_call_of_full nnn hfull]; exact exec_call_of_full (s := s.present inp) nnn hfull

theorem exec_ret_present : exec .ret (s.present inp) = mapNext (State.present inp) (exec .ret s) := by
  by_cases h : 0 < s.sp.val
  · rw [exec_ret_of_pos h]; exact exec_ret_of_pos (s := s.present inp) h
  · have hempty : s.sp = 0 := Fin.ext (by omega)
    rw [exec_ret_of_empty hempty]; exact exec_ret_of_empty (s := s.present inp) hempty

end

/-- Settles O24: an instruction that names no input runs on the same parts of the state; the three key instructions and CXNN
see the same input by hypothesis; the checks and the stack see none. -/
theorem inputsAreReadOnlyAsNamed : Obligations.InputsAreReadOnlyAsNamed := by
  intro i s inp hkeys hrand
  cases i with
  | skp | sknp => simp only [exec, execSkp, execSknp, State.present_input, hkeys rfl]; rfl
  | waitk x =>
    simp only [exec, execWaitk, State.present_input, hkeys rfl]
    split <;> rfl
  | rnd x nn => simp only [exec, execRnd, State.present_input, hrand rfl]; rfl
  | bcd x => exact storeBytes_present s inp _ _ (k := fun s => s) fun _ => rfl
  | stm x => exact storeBytes_present s inp _ _ (k := fun s => s.bumpIndex x) fun _ => rfl
  | ldm x => exact guarded_present s inp _ (k := fun s => (s.loadRegs x s.base).bumpIndex x) rfl
  | drw x y n =>
    exact guarded_present s inp _
      (k := fun s => (s.setDisp (s.drawing x y n).1).setReg vf (collisionFlag (s.drawing x y n).2)) rfl
  | call nnn => exact exec_call_present s inp nnn
  | ret => exact exec_ret_present s inp
  | _ => rfl

end Sys2Proof.Machine
end

section
/-! PROOFS. Control transfer: the words of the jumps and skips, and what each instruction of `41_control_flow.md` does
(R72 to R79). -/

namespace Sys2Proof

/-- An instruction is decoded from the number its word is. -/
theorem decodeWord_ofNat {i : Instr} {n : Nat} (h : encode i = BitVec.ofNat 16 n) :
    decodeWord (BitVec.ofNat 16 n) = .ok i := h ▸ decodeWord_encode i

/-- Format XYk under the leading nibbles 5 and 9 has an instruction for k = 0 only (`30_encoding.md` R58). -/
theorem decodeWord_ofNat_XYk_error {op : Nat} (hop : op = 5 ∨ op = 9) (x y : Reg) {k : Nat} (h0 : 0 < k) (hk : k < 16) :
    ∃ e, decodeWord (BitVec.ofNat 16 (op * 4096 + x.val * 256 + y.val * 16 + k)) = .error e := by
  refine ⟨_, (unrecognizedWordsAreThoseListed _).1.2 ?_⟩
  rw [BitVec.toNat_ofNat, Nat.mod_eq_of_lt (by omega)]
  obtain rfl | rfl := hop
  · exact .inr (.inl ⟨by omega, by omega⟩)
  · exact .inr (.inr (.inr (.inl ⟨by omega, by omega⟩)))

end Sys2Proof

namespace Sys2Proof.Machine

/-- A part that came back to its value before is kept after all. -/
theorem KeptExcept.restore {p : Part} {ps : List Part} {s t : State} (h : KeptExcept (p :: ps) s t) (hp : Kept s t p) :
    KeptExcept ps s t := by
  intro q hq
  by_cases hqp : q = p
  · exact hqp ▸ hp
  · exact h q (List.not_mem_cons_of_ne_of_not_mem hqp hq)

/-! ### Jumps -/

/-- Settles O29: the word is the encoding, and the one update is that of PC. -/
theorem jumpLoadsPc : Obligations.JumpLoadsPc := fun nnn s =>
  ⟨decodeWord_ofNat (formatNNN_eq_ofNat 0x1 nnn), _, rfl, zextAddr_toNat nnn, s.setPc_keptExcept _⟩

/-- Settles O30: the X of the statement is the model's `jumpReg`, and a byte added to a 12-bit address does not wrap
(`jumpTarget_toNat`). -/
theorem jumpWithOffsetAddsTheQuirkRegister : Obligations.JumpWithOffsetAddsTheQuirkRegister := by
  intro nnn s x hx
  have hreg : jumpReg nnn = x := Fin.ext ((jumpReg_val nnn).trans hx.symm)
  refine ⟨_, rfl, s.setPc_keptExcept _, ?_⟩
  rw [State.setPc_pc, jumpTarget_toNat, State.jumpBase_eq, hreg]

/-! ### Skips -/

section
variable (s : State) (p : Prop) [Decidable p]

theorem State.skipIf_decide_pc : (s.skipIf (decide p)).pc = if p then s.pc + 2 else s.pc := by
  simp only [State.skipIf_pc, decide_eq_true_eq]

theorem State.skipIf_decide_not_pc : (s.skipIf (decide ¬p)).pc = if p then s.pc else s.pc + 2 := by
  rw [State.skipIf_decide_pc, ite_not]

end

/-- Settles O31: each word is the encoding, each instruction one `skipIf` on its condition, and R58 lists the words with a low
nibble from 1 to 15. -/
theorem registerSkipsFollowTheirCondition : Obligations.RegisterSkipsFollowTheirCondition := by
  intro x y nn s
  refine ⟨?sei, ?snei, ?ser, ?sner⟩
  case sei =>
    exact ⟨decodeWord_ofNat (formatXNN_eq_ofNat 0x3 x nn), _, rfl, s.skipIf_decide_pc _, s.skipIf_keptExcept _⟩
  case snei =>
    exact ⟨decodeWord_ofNat (formatXNN_eq_ofNat 0x4 x nn), _, rfl, s.skipIf_decide_not_pc _, s.skipIf_keptExcept _⟩
  case ser =>
    exact ⟨decodeWord_ofNat (formatXYN_eq_ofNat 0x5 x y 0), fun _ => decodeWord_ofNat_XYk_error (.inl rfl) x y,
      _, rfl, s.skipIf_decide_pc _, s.skipIf_keptExcept _⟩
  case sner =>
    exact ⟨decodeWord_ofNat (formatXYN_eq_ofNat 0x9 x y 0), fun _ => decodeWord_ofNat_XYk_error (.inr rfl) x y,
      _, rfl, s.skipIf_decide_not_pc _, s.skipIf_keptExcept _⟩

/-! ### Call and return -/

/-- Settles O32: with room on the stack the call is one push and one write of PC, each with its frame. -/
theorem callPushesReturnAddress : Obligations.CallPushesReturnAddress := by
  intro nnn s h
  refine ⟨_, exec_call_of_lt nnn h, zextAddr_toNat nnn, rfl, fun k => ?entries, ?frame⟩
  case entries => simp only [State.setPc_stack, Fin.getElem_fin, Vector.getElem_set, eq_comm]
  case frame => exact ((stack_keptExcept s _ _).trans (State.setPc_keptExcept _ _)).mono (by simp)

/-- A return with `k + 1` entries in use takes entry `k`. -/
theorem exec_ret_of_eq_succ {s : State} {k : Fin 16} (h : s.sp.val = k.val + 1) :
    exec .ret s = .next (State.setPc { s with sp := k.castSucc } s.stack[k]) := by
  have hk : s.sp.val - 1 = k.val := by omega
  rw [exec_ret_of_pos (by omega)]
  simp only [hk]
  rfl

/-- Settles O33: the return is one move of SP and one write of PC, each with its frame. -/
theorem returnPopsPc : Obligations.ReturnPopsPc := fun s _ h =>
  ⟨_, exec_ret_of_eq_succ h, rfl, rfl, ((sp_keptExcept s _).trans (State.setPc_keptExcept _ _)).mono (by simp)⟩

/-- Settles O35: the return takes the entry the call wrote, so PC and SP come back, and the frames leave the stack's entries
only. -/
theorem callThenReturnComesBack : Obligations.CallThenReturnComesBack := by
  intro nnn s pc h
  obtain ⟨t, ht, -, htsp, hstack, hcall⟩ := callPushesReturnAddress nnn s h
  obtain ⟨u, hu, hupc, husp, hret⟩ := returnPopsPc (t.setPc pc) ⟨s.sp.val, h⟩ htsp
  have hpc : u.pc = s.pc := hupc.trans ((hstack _).trans (if_pos rfl))
  have hsp : u.sp = s.sp := Fin.ext husp
  have hframe : KeptExcept [.pc, .sp, .stack] s u :=
    ((hcall.trans (t.setPc_keptExcept pc)).trans hret).mono (by simp)
  exact ⟨t, u, ht, hu, hpc, hsp, (hframe.restore hpc).restore hsp⟩

end Sys2Proof.Machine
end

section
/-! PROOFS. Load and arithmetic: the words of the loads and the bitwise instructions, and what each instruction of
`42_load_alu.md` does (R80 to R92). Each is one write of V[X], or one of V[X] and then VF. -/

namespace Sys2Proof.Machine

/-! ### The two write laws -/

/-- An instruction that is one register write: what holds of the byte written holds of V[X] after it, and all else is kept. -/
theorem exec_writes_reg {i : Instr} {s : State} {x : Reg} {b : Byte} {P : Byte → Prop}
    (h : exec i s = .next (s.setReg x b)) (hb : P b) :
    ∃ t, exec i s = .next t ∧ P (t.reg x) ∧ (∀ r, r ≠ x → t.reg r = s.reg r) ∧ KeptExcept [.v] s t := by
  refine ⟨_, h, ?result, fun r hr => ?others, s.setReg_keptExcept x b⟩
  case result => rwa [State.reg_setReg, if_pos rfl]
  case others => rw [State.reg_setReg, if_neg hr]

/-- An instruction that writes a result and then the flag (R80): the flag is in VF whatever X is, the result in V[X] when X is
not F, and all else is kept. -/
theorem exec_writes_reg_and_flag {i : Instr} {s : State} {x : Reg} {b f : Byte} {F P : Byte → Prop}
    (h : exec i s = .next (s.setRegFlag x b f)) (hf : F f) (hb : P b) :
    ∃ t, exec i s = .next t ∧ F (t.reg 15) ∧ (x ≠ 15 → P (t.reg x)) ∧
      (∀ r, r ≠ x → r ≠ 15 → t.reg r = s.reg r) ∧ KeptExcept [.v] s t := by
  refine ⟨_, h, ?flag, fun hx => ?result, fun r hr hrf => ?others, s.setRegFlag_keptExcept x b f⟩
  case flag => rwa [State.reg_setRegFlag, if_pos rfl]
  case result => rwa [State.reg_setRegFlag, if_neg hx, if_pos rfl]
  case others => rw [State.reg_setRegFlag, if_neg hrf, if_neg hr]

/-! ### The flags and the results as numbers -/

theorem flagByte_decide (p : Prop) [Decidable p] : flagByte (decide p) = if p then 1 else 0 := by
  simp only [flagByte, decide_eq_true_eq]

section
variable (a b : Byte)

theorem carryFlag_eq : carryFlag a b = if a.toNat + b.toNat > 255 then 1 else 0 := flagByte_decide _

theorem noBorrowFlag_eq : noBorrowFlag a b = if a.toNat ≥ b.toNat then 1 else 0 := flagByte_decide _

theorem byte_sub_toNat : (a - b).toNat = (a.toNat + 256 - b.toNat) % 256 := by
  have := b.isLt
  rw [BitVec.toNat_sub]
  omega

theorem byte_shiftRight_one_toNat : (a >>> 1).toNat = a.toNat / 2 := by
  rw [BitVec.toNat_ushiftRight, Nat.shiftRight_eq_div_pow, pow_one]

theorem byte_shiftLeft_one_toNat : (a <<< 1).toNat = a.toNat * 2 % 256 := by
  rw [BitVec.toNat_shiftLeft, Nat.shiftLeft_eq, pow_one]

end

/-! ### The instructions that write VF -/

/-- A subtraction `a - b` into V[X] with the no-borrow flag, whichever registers the operands are read from. -/
theorem exec_writes_difference {i : Instr} {s : State} {x : Reg} {a b : Byte}
    (h : exec i s = .next (s.setRegFlag x (a - b) (noBorrowFlag a b))) :
    ∃ t, exec i s = .next t ∧ t.reg 15 = (if a.toNat ≥ b.toNat then 1 else 0) ∧
      (x ≠ 15 → (t.reg x).toNat = (a.toNat + 256 - b.toNat) % 256) ∧
      (∀ r, r ≠ x → r ≠ 15 → t.reg r = s.reg r) ∧ KeptExcept [.v] s t :=
  exec_writes_reg_and_flag (F := fun f => f = if a.toNat ≥ b.toNat then 1 else 0)
    (P := fun d => d.toNat = (a.toNat + 256 - b.toNat) % 256) h (noBorrowFlag_eq a b) (byte_sub_toNat a b)

/-- Settles O39: 8XY5 subtracts V[Y] from V[X], 8XY7 V[X] from V[Y]. -/
theorem subtractsWriteDifferenceAndNoBorrow : Obligations.SubtractsWriteDifferenceAndNoBorrow := fun _ _ _ =>
  ⟨exec_writes_difference rfl, exec_writes_difference rfl⟩

/-- Settles O40: the `a` of the statement is the model's `shiftOperand`, and each shift is the write law on it. -/
theorem shiftsWriteResultAndBitShiftedOut : Obligations.ShiftsWriteResultAndBitShiftedOut := by
  intro x y s a ha
  have hop : s.shiftOperand x y = a := (s.shiftOperand_eq x y).trans ha.symm
  have hshr : exec (.shr x y) s = .next (s.setRegFlag x (a >>> 1) (shiftedOutLow a)) := hop ▸ rfl
  have hshl : exec (.shl x y) s = .next (s.setRegFlag x (a <<< 1) (shiftedOutHigh a)) := hop ▸ rfl
  exact ⟨exec_writes_reg_and_flag (F := fun f => f.toNat = a.toNat % 2) (P := fun b => b.toNat = a.toNat / 2)
      hshr (shiftedOutLow_toNat a) (byte_shiftRight_one_toNat a),
    exec_writes_reg_and_flag (F := fun f => f.toNat = a.toNat / 128) (P := fun b => b.toNat = a.toNat * 2 % 256)
      hshl (shiftedOutHigh_toNat a) (byte_shiftLeft_one_toNat a)⟩

/-- Settles O38: the sum is the write law with the carry. -/
theorem addWritesSumAndCarry : Obligations.AddWritesSumAndCarry := fun x y s =>
  exec_writes_reg_and_flag (F := fun f => f = if (s.reg x).toNat + (s.reg y).toNat > 255 then 1 else 0)
    (P := fun b => b.toNat = ((s.reg x).toNat + (s.reg y).toNat) % 256)
    rfl (carryFlag_eq _ _) (BitVec.toNat_add _ _)

/-! ### The instructions that write no flag -/

/-- Settles O36: each word is the encoding, each instruction one register write. -/
theorem loadsAndImmediateAddWriteOneRegister : Obligations.LoadsAndImmediateAddWriteOneRegister := by
  intro x y nn s
  refine ⟨⟨decodeWord_ofNat (formatXNN_eq_ofNat 0x6 x nn), ?ldi⟩, ⟨decodeWord_ofNat (formatXNN_eq_ofNat 0x7 x nn), ?addi⟩,
    ⟨decodeWord_ofNat (formatXYN_eq_ofNat 0x8 x y 0), ?mov⟩⟩
  case ldi => exact exec_writes_reg (P := fun b => b = nn) rfl rfl
  case addi =>
    exact exec_writes_reg (P := fun b => b.toNat = ((s.reg x).toNat + nn.toNat) % 256) rfl (BitVec.toNat_add _ _)
  case mov => exact exec_writes_reg (P := fun b => b = s.reg y) rfl rfl

/-- The number of a word 8XYk, its low nibble written into the leading constant as the statements write it. -/
theorem formatXYN_eight_eq_ofNat (x y : Reg) (k : BitVec 4) :
    formatXYN 0x8 x y k = BitVec.ofNat 16 (0x8000 + k.toNat + x.val * 256 + y.val * 16) := by
  rw [formatXYN_eq_ofNat]
  congr 1
  simp only [BitVec.reduceToNat]
  omega

/-- Settles O37: each word is the encoding, each instruction one register write, whose bits are the operands' bits joined. -/
theorem bitwiseInstructionsWriteOneRegister : Obligations.BitwiseInstructionsWriteOneRegister := by
  intro x y s
  refine ⟨⟨decodeWord_ofNat (formatXYN_eight_eq_ofNat x y 1), ?or⟩, ⟨decodeWord_ofNat (formatXYN_eight_eq_ofNat x y 2), ?and⟩,
    ⟨decodeWord_ofNat (formatXYN_eight_eq_ofNat x y 3), ?xor⟩⟩
  case or =>
    exact exec_writes_reg (P := fun v => ∀ b, b < 8 → v.getLsbD b = ((s.reg x).getLsbD b || (s.reg y).getLsbD b)) rfl
      fun _ _ => BitVec.getLsbD_or
  case and =>
    exact exec_writes_reg (P := fun v => ∀ b, b < 8 → v.getLsbD b = ((s.reg x).getLsbD b && (s.reg y).getLsbD b)) rfl
      fun _ _ => BitVec.getLsbD_and
  case xor =>
    exact exec_writes_reg (P := fun v => ∀ b, b < 8 → v.getLsbD b = ((s.reg x).getLsbD b != (s.reg y).getLsbD b)) rfl
      fun _ _ => BitVec.getLsbD_xor

/-- Settles O41: CXNN is one register write, of the step's input under the mask. -/
theorem randomIsInputUnderMask : Obligations.RandomIsInputUnderMask := fun _ nn s =>
  exec_writes_reg (P := fun v => ∀ b, b < 8 → v.getLsbD b = (s.input.rand.getLsbD b && nn.getLsbD b)) rfl
    fun _ _ => BitVec.getLsbD_and

end Sys2Proof.Machine
end

section
/-! PROOFS. The index register and memory: what a check of a range answers in the terms of `InMemory` and `MissesFont`, and what
each instruction of `43_index_memory.md` does (R93 to R100). -/

namespace Sys2Proof.Machine

/-! ### The checks of a range -/

section
variable {base n : Nat}

theorem checkWrite_of_not_inMemory (hn : 0 < n) (h : ¬ InMemory base n) :
    checkWrite base n = some (.memoryFault .dataWrite, BitVec.ofNat 16 (max base 0x1000)) :=
  if_pos (outOfMemory_iff.2 ⟨hn, Nat.not_le.1 h⟩)

theorem checkWrite_of_not_missesFont (hn : 0 < n) (h : InMemory base n) (hf : ¬ MissesFont base n) :
    checkWrite base n = some (.memoryFault .fontWrite, BitVec.ofNat 16 (max base 0x050)) := by
  cases hc : checkWrite base n with
  | none => exact absurd ((checkWrite_eq_none hn).1 hc).2 hf
  | some p =>
    obtain ⟨hout, -, -⟩ | ⟨-, -, -, hcause, haddr⟩ := checkWrite_eq_some hc
    · exact absurd h (Nat.not_le.2 hout)
    · rw [← hcause, ← haddr]

end

/-! ### The index register -/

/-- Settles O42: each is one write of I, of an address that fits in it. -/
theorem indexLoadsGiveTheirAddress : Obligations.IndexLoadsGiveTheirAddress := fun nnn x s =>
  ⟨⟨_, rfl, zextAddr_toNat nnn, s.setIndex_keptExcept _⟩,
    ⟨_, rfl, fontAddress_large_toNat (s.reg x), s.setIndex_keptExcept _⟩,
    ⟨_, rfl, largeGlyph_toNat (s.reg x).isLt, s.setIndex_keptExcept _⟩⟩

/-- Settles O43: one write of I, then one of VF, with the flag of the default mode. -/
theorem addToIndexWrapsAndFlagsOverflow : Obligations.AddToIndexWrapsAndFlagsOverflow := by
  intro x s
  refine ⟨_, rfl, ?sum, ?flag, fun r hr => ?others, (s.setIndex_keptExcept _).trans (State.setReg_keptExcept _ _ _)⟩
  case sum =>
    rw [State.setReg_i, State.setIndex_i, BitVec.toNat_ofNat, State.indexSum]
    omega
  case flag => rw [State.reg_setReg, if_pos rfl]; exact indexFlag_writeBoth _ _
  case others => rw [State.reg_setReg, if_neg hr, State.reg_setIndex]

/-! ### Stores and loads on a good range -/

/-- A range reads as the bytes just stored there. -/
theorem Memory.readBytes_writeBytes {m : Memory} {a : Nat} {bs : List Byte} (h : m.wf = true) (hl : InMemory a bs.length) :
    (m.writeBytes a bs).readBytes a bs.length = bs := by
  refine List.ext_getElem (Memory.readBytes_length _ _ _) fun k hk hk' => ?_
  rw [Memory.readBytes_getElem _ _ _ _ hk, Memory.read_writeBytes_at bs h hl k hk']

/-- Settles O44: the check passes, and the three bytes from I read as the digits of V[X]; every other byte is left. -/
theorem bcdStoresThreeDigits : Obligations.BcdStoresThreeDigits := by
  intro x s hwf hmem hfont
  have hread : (s.mem.writeBytes s.base (bcdDigits (s.reg x))).readBytes s.base 3 = bcdDigits (s.reg x) :=
    Memory.readBytes_writeBytes hwf hmem
  have hdigits := (congrArg (List.map BitVec.toNat) hread).trans (bcdDigits_toNat (s.reg x))
  simp only [Memory.readBytes, List.range, List.range.loop, List.map_cons, List.map_nil, List.cons.injEq, and_true] at hdigits
  obtain ⟨hundreds, tens, units⟩ := hdigits
  exact ⟨_, exec_bcd_of_none x s ((checkWrite_eq_none (by decide)).2 ⟨hmem, hfont⟩), hundreds, tens, units,
    fun a => Memory.read_writeBytes_other (bcdDigits (s.reg x)) s.mem s.base a, mem_keptExcept s _⟩

/-- Settles O45: the check passes, the store puts V[r] at I + r and leaves every other byte, then I moves. -/
theorem storeMultipleWritesRegisters : Obligations.StoreMultipleWritesRegisters := by
  intro x s hwf hmem hfont
  have hlen := s.regsUpTo_length x
  refine ⟨_, exec_stm_of_none x s ((checkWrite_eq_none (Nat.succ_pos _)).2 ⟨hmem, hfont⟩), fun r hr => ?stored,
    fun a ha => ?others, State.bumpIndex_toNat _ x, (mem_keptExcept s _).trans (State.bumpIndex_keptExcept _ x)⟩
  case stored =>
    have hlt : r.val < (s.regsUpTo x).length := by omega
    exact (Memory.read_writeBytes_at _ hwf (hlen ▸ hmem) r.val hlt).trans (s.regsUpTo_getElem x r hlt)
  case others => exact Memory.read_writeBytes_other _ _ _ _ (by omega)

/-- Settles O46: the check passes, the registers are loaded, then I moves. -/
theorem loadMultipleReadsRegisters : Obligations.LoadMultipleReadsRegisters := fun x s hmem =>
  ⟨_, exec_ldm_of_none x s (checkRead_eq_none.2 (.inr hmem)), fun r => s.reg_loadRegs x r s.base,
    (s.loadRegs x s.base).bumpIndex_toNat x, (s.loadRegs_keptExcept x _).trans (State.bumpIndex_keptExcept _ x)⟩

/-! ### Faults on a bad range -/

/-- An instruction that takes a fault: FAULT holds its record, PC is the instruction's address, there is no report, and all else
is kept (`60_exceptions.md` R128). -/
theorem exec_takes_fault {i : Instr} {s : State} {c : FaultCause} {a : Word}
    (h : exec i s = .next (takeFault c a (s.pc - 2) s)) :
    ∃ t, exec i s = .next t ∧ t.fault = ⟨c, s.pc - 2, a⟩ ∧ t.pc = s.pc - 2 ∧ t.report = none ∧
      KeptExcept [.pc, .fault, .report] s t :=
  ⟨_, h, rfl, rfl, rfl, takeFault_kept c a _ s⟩

/-- Settles O47: both instructions check their whole, nonempty range and take the fault the check answers. -/
theorem badStoresFaultAndStoreNothing : Obligations.BadStoresFaultAndStoreNothing := by
  intro i x n s hi
  have hn : 0 < n := by omega
  have hfault {c : FaultCause} {a : Word} (h : checkWrite s.base n = some (c, a)) :
      exec i s = .next (takeFault c a (s.pc - 2) s) := by
    obtain ⟨rfl, rfl⟩ | ⟨rfl, rfl⟩ := hi
    · exact exec_bcd_of_some x s h
    · exact exec_stm_of_some x s h
  exact ⟨fun hout => exec_takes_fault (hfault (checkWrite_of_not_inMemory hn hout)),
    fun hmem hfont => exec_takes_fault (hfault (checkWrite_of_not_missesFont hn hmem hfont))⟩

/-- Settles O48: both instructions check their nonempty range and take the fault the check answers. -/
theorem badReadsFaultAndChangeNothing : Obligations.BadReadsFaultAndChangeNothing := by
  rintro i x y n s (⟨rfl, hout⟩ | ⟨rfl, hn, hout⟩)
  · exact exec_takes_fault (exec_ldm_of_some x s (checkRead_eq_some (Nat.succ_pos _) (Nat.not_le.1 hout)))
  · exact exec_takes_fault (exec_drw_of_some x y n s (checkRead_eq_some (Fin.pos_iff_ne_zero.2 hn) (Nat.not_le.1 hout)))

end Sys2Proof.Machine
end

section
/-! PROOFS. The display instructions: one write of the buffer each, read cell by cell, and the resolution switches
(`44_display.md`). -/

namespace Sys2Proof.Machine

/-- Settles O22: an instruction that took no fault completed, and then DIRTY is as `exec_dirty` says. -/
theorem dirtyIsSetByDisplayWritersOnly : Obligations.DirtyIsSetByDisplayWritersOnly := by
  intro i s t _ h ht
  obtain ⟨hfault, -⟩ | hdirty := exec_dirty h
  · exact absurd ht hfault
  · exact hdirty

/-! ### Clearing, scrolling, switching the resolution -/

/-- Settles O49: the word is the encoding, and the buffer written is the blank one. -/
theorem clearBlanksTheWholeBuffer : Obligations.ClearBlanksTheWholeBuffer :=
  ⟨decodeWord_encode .cls, fun s => ⟨_, rfl, Display.cell_blank, rfl, s.setDisp_keptExcept _⟩⟩

/-- A nominal amount is doubled in low resolution unless Q_SCROLL is set (`44_display.md` R109). -/
theorem State.scrollCells_eq (s : State) (n : Nat) :
    s.scrollCells n = if s.hires ∨ s.quirks.scroll then n else 2 * n := by
  simp only [State.scrollCells, scrollAmount, Bool.or_eq_true]

/-- Settles O52: the `a` of the statement is the model's `scrollCells`, and the buffer is read row by row. -/
theorem scrollDownMovesRows : Obligations.ScrollDownMovesRows := by
  intro n s a ha
  obtain rfl : a = s.scrollCells n.val := ha.trans (s.scrollCells_eq n.val).symm
  exact ⟨_, rfl, fun px _ _ hy => s.disp.cell_scrollDown _ px hy, rfl, s.setDisp_keptExcept _⟩

/-- Settles O53: the `a` of the statement is the model's `scrollCells` of 4, and the buffer is read column by column. -/
theorem sidewaysScrollsMoveColumns : Obligations.SidewaysScrollsMoveColumns := by
  intro s a ha
  obtain rfl : a = s.scrollCells 4 := ha.trans (s.scrollCells_eq 4).symm
  exact ⟨⟨_, rfl, fun _ _ hx hy => s.disp.cell_scrollRight _ hx hy, rfl, s.setDisp_keptExcept _⟩,
    ⟨_, rfl, fun px _ _ hy => s.disp.cell_scrollLeft _ px hy, rfl, s.setDisp_keptExcept _⟩⟩

/-- The resolution switches keep all but HIRES. -/
theorem hires_keptExcept (s : State) (b : Bool) : KeptExcept [.hires] s { s with hires := b } := by
  simp [keptExcept_iff, State.reg]

/-- Settles O54: each is one write of HIRES, and keeps all else. -/
theorem resolutionSwitchesOnlyForceHires : Obligations.ResolutionSwitchesOnlyForceHires := fun s =>
  ⟨⟨_, rfl, rfl, hires_keptExcept s _⟩, ⟨_, rfl, rfl, hires_keptExcept s _⟩⟩

/-! ### Drawing -/

section
variable {s : State} {x y : Reg} {n : Count} {px py : Nat}

/-- The cells DXYN visits are the cells of the buffer that the sprite covers (`44_display.md` R102, R103). -/
theorem mem_sprite_iff_spriteCovers :
    (px, py) ∈ spriteCells s.hires (s.drawColumn x) (s.drawRow y) (s.sprite n) ↔
      px < 128 ∧ py < 64 ∧ SpriteCovers s x y n px py := by
  rw [mem_sprite]
  have hwidth : (if s.hires then px else px / 2) < logicalWidth s.hires ↔ px < 128 := by
    unfold logicalWidth; split <;> omega
  have hheight : (if s.hires then py else py / 2) < logicalHeight s.hires ↔ py < 64 := by
    unfold logicalHeight; split <;> omega
  rw [hwidth, hheight]
  constructor
  · rintro ⟨hy0, hyn, hy, hx0, hx8, hx, hbit⟩; exact ⟨hx, hy, hx0, hx8, hy0, hyn, hbit⟩
  · rintro ⟨hx, hy, hx0, hx8, hy0, hyn, hbit⟩; exact ⟨hy0, hyn, hy, hx0, hx8, hx, hbit⟩

/-- A draw flips the cells it visits, each once. -/
theorem State.drawing_cell : (s.drawing x y n).1.cell px py =
    (s.disp.cell px py != decide ((px, py) ∈ spriteCells s.hires (s.drawColumn x) (s.drawRow y) (s.sprite n))) :=
  cell_foldl_xorCell _ (nodup_spriteCells ..) (fun _ => spriteCells_inside) _ _ _ _

/-- A drawn cell is flipped when the sprite covers it. -/
theorem State.drawing_cell_of_covers (hx : px < 128) (hy : py < 64) (h : SpriteCovers s x y n px py) :
    (s.drawing x y n).1.cell px py = !s.disp.cell px py := by
  rw [State.drawing_cell, decide_eq_true (mem_sprite_iff_spriteCovers.2 ⟨hx, hy, h⟩), Bool.bne_true]

theorem State.drawing_cell_of_not_covers (h : ¬ SpriteCovers s x y n px py) :
    (s.drawing x y n).1.cell px py = s.disp.cell px py := by
  rw [State.drawing_cell, decide_eq_false fun hc => h (mem_sprite_iff_spriteCovers.1 hc).2.2, Bool.bne_false]

/-- A draw collides exactly when the sprite covers a lit cell of the buffer. -/
theorem State.drawing_collided_iff :
    (s.drawing x y n).2 = true ↔
      ∃ px py, px < 128 ∧ py < 64 ∧ SpriteCovers s x y n px py ∧ s.disp.cell px py = true := by
  rw [State.drawing, Display.draw,
    collided_foldl_xorCell _ (nodup_spriteCells ..) fun _ => spriteCells_inside]
  simp [Prod.exists, mem_sprite_iff_spriteCovers, and_assoc]

end

/-- Settles O50: the check passes, the draw is read cell by cell, and VF is written over it. -/
theorem drawFlipsTheCoveredCells : Obligations.DrawFlipsTheCoveredCells := by
  intro x y n s hmem
  have hcheck : checkRead s.base n.val = none := checkRead_eq_none.2 (hmem.imp_left (congrArg Fin.val))
  refine ⟨_, exec_drw_of_none x y n s hcheck, fun px py hx hy => ⟨?flipped, ?kept⟩, fun hlit => ?collision,
    fun hdark => ?none, rfl, fun r hr => ?others, ?frame⟩
  case flipped => exact State.drawing_cell_of_covers hx hy
  case kept => exact State.drawing_cell_of_not_covers
  case collision =>
    rw [State.reg_setReg, if_pos rfl, State.drawing_collided_iff.2 hlit]; rfl
  case none =>
    have : (s.drawing x y n).2 = false := by
      rw [← Bool.not_eq_true, State.drawing_collided_iff]
      rintro ⟨px, py, hx, hy, hc, hl⟩
      simp [hdark px py hx hy hc] at hl
    rw [State.reg_setReg, if_pos rfl, this]; rfl
  case others => rw [State.reg_setReg, if_neg hr, State.reg_setDisp]
  case frame =>
    exact ((s.setDisp_keptExcept _).trans (State.setReg_keptExcept _ _ _)).mono (by simp)

/-- What a sprite covers depends on its two registers, I, HIRES and memory only. -/
theorem spriteCovers_congr {s t : State} {x y : Reg} (hx : t.reg x = s.reg x) (hy : t.reg y = s.reg y) (hi : t.i = s.i)
    (hh : t.hires = s.hires) (hm : ∀ a, t.mem.read a = s.mem.read a) (n : Count) (px py : Nat) :
    SpriteCovers t x y n px py ↔ SpriteCovers s x y n px py := by
  simp only [SpriteCovers, hx, hy, hi, hh, hm]

/-- Settles O51: the first draw moves nothing that the second one's sprite depends on, so both flip the same cells
(`drawFlipsTheCoveredCells`). -/
theorem drawingTwiceRestoresTheBuffer : Obligations.DrawingTwiceRestoresTheBuffer := by
  intro x y n s t u hx hy hmem ht hu
  obtain ⟨_, ht', hcells, -, -, -, hregs, hframe⟩ := drawFlipsTheCoveredCells x y n s hmem
  cases ht.symm.trans ht'
  have hi : t.i = s.i := hframe .i (by decide)
  have hcov := spriteCovers_congr (hregs x hx) (hregs y hy) hi (hframe .hires (by decide)) (hframe .mem (by decide)) n
  have hbase : t.base = s.base := congrArg BitVec.toNat hi
  obtain ⟨_, hu', hcells', hlit, hdark, -⟩ := drawFlipsTheCoveredCells x y n t (hbase ▸ hmem)
  cases hu.symm.trans hu'
  simp only [hcov] at hcells' hlit hdark
  refine ⟨fun px py => ?restored, fun h1 => ?lit, hlit⟩
  case restored =>
    by_cases hin : px < 128 ∧ py < 64
    · obtain ⟨hflip, hkeep⟩ := hcells px py hin.1 hin.2
      obtain ⟨hflip', hkeep'⟩ := hcells' px py hin.1 hin.2
      by_cases hc : SpriteCovers s x y n px py
      · rw [hflip' hc, hflip hc, Bool.not_not]
      · rw [hkeep' hc, hkeep hc]
    · have hout : 128 ≤ px ∨ 64 ≤ py := by omega
      rw [Display.cell_outside _ hout, Display.cell_outside _ hout]
  case lit =>
    by_contra hnone
    have h0 : u.reg 15 = 0 := hdark fun px py hpx hpy hc =>
      Bool.eq_false_iff.2 fun hl => hnone ⟨px, py, hpx, hpy, hc, hl⟩
    exact absurd (h0.symm.trans h1) (by decide)

end Sys2Proof.Machine
end

section
/-! PROOFS. Keypad, timers, RPL flags and exit: each instruction of `45_keypad_timer_system.md` is one write of the state, of
PC, of one register, or of one of the parts named here (R111 to R120). -/

namespace Sys2Proof.Machine

/-! ### The keypad -/

/-- EXA1 skips on the negation of EX9E's condition. -/
theorem State.skipIf_not_pc (s : State) (c : Bool) : (s.skipIf (!c)).pc = if c then s.pc else s.pc + 2 := by
  cases c with
  | false => rfl
  | true => rfl

/-- Settles O55: the `down` of the statement is the model's `keyIsDown`, and each instruction is one `skipIf` on it or on its
negation. -/
theorem keySkipsTestTheOneKeyDown : Obligations.KeySkipsTestTheOneKeyDown := by
  intro x s down hdown
  obtain rfl : down = keyIsDown (s.reg x) s.input.keyInput :=
    Bool.eq_iff_iff.2 (hdown.trans (keyIsDown_iff _ _).symm)
  exact ⟨⟨_, rfl, rfl, s.skipIf_keptExcept _⟩, ⟨_, rfl, s.skipIf_not_pc _, s.skipIf_keptExcept _⟩⟩

/-- The key code is the low nibble of `key_input` (`10_state.md` R34). -/
theorem keyCode_toNat (k : Byte) : (keyCode k).toNat = k.toNat % 16 := BitVec.extractLsb'_toNat 0 4 k

theorem exec_waitk_of_down (x : Reg) {s : State} (h : keyDown s.input.keyInput = true) :
    exec (.waitk x) s = .next (s.setReg x ((keyCode s.input.keyInput).setWidth 8)) :=
  congrArg Host.Outcome.next (if_pos h)

theorem exec_waitk_of_not_down (x : Reg) {s : State} (h : ¬ keyDown s.input.keyInput = true) :
    exec (.waitk x) s = .next (s.setPc (s.pc - 2)) :=
  congrArg Host.Outcome.next (if_neg h)

/-- Settles O56: with a key down FX0A is one register write of its code, with none one write of PC. -/
theorem waitForKeyTakesItOrRetries : Obligations.WaitForKeyTakesItOrRetries := by
  intro x s
  refine ⟨fun hbit => ?takes, fun hbit => ?retries⟩
  case takes =>
    have hcode : ((keyCode s.input.keyInput).setWidth 8).toNat = s.input.keyInput.toNat % 16 :=
      (BitVec.toNat_setWidth_of_le (by decide)).trans (keyCode_toNat _)
    exact exec_writes_reg (P := fun v => v.toNat = s.input.keyInput.toNat % 16)
      (exec_waitk_of_down x ((keyDown_iff _).2 hbit)) hcode
  case retries =>
    have hup : ¬ keyDown s.input.keyInput = true := by rw [keyDown_iff, hbit]; decide
    exact ⟨_, exec_waitk_of_not_down x hup, rfl, s.setPc_keptExcept _⟩

/-! ### Timers and exit -/

section
variable (s : State)

theorem dt_keptExcept (b : Byte) : KeptExcept [.dt] s { s with dt := b } := by simp [keptExcept_iff, State.reg]

theorem st_keptExcept (b : Byte) : KeptExcept [.st] s { s with st := b } := by simp [keptExcept_iff, State.reg]

theorem exit_keptExcept (b : Bool) : KeptExcept [.exit] s { s with exit := b } := by simp [keptExcept_iff, State.reg]

/-- The output `sound_off` is ST = 0, as a number (`10_state.md` R24). -/
theorem State.soundOff_eq : s.soundOff = decide (s.st.toNat = 0) := decide_eq_decide.2 BitVec.toNat_inj.symm

end

/-- Settles O57: FX07 is one register write, FX15 one write of DT, FX18 one write of ST, which `sound_off` reads. -/
theorem timerInstructionsMoveOneByte : Obligations.TimerInstructionsMoveOneByte := fun _ s =>
  ⟨exec_writes_reg (P := fun v => v = s.dt) rfl rfl, ⟨_, rfl, rfl, dt_keptExcept s _⟩,
    ⟨_, rfl, rfl, State.soundOff_eq _, st_keptExcept s _⟩⟩

/-- Settles O59: 00FD is one write of EXIT; FAULT, which `halted` reads, is not touched. -/
theorem exitSetsTheExitFlag : Obligations.ExitSetsTheExitFlag := fun s => ⟨_, rfl, rfl, rfl, exit_keptExcept s _⟩

/-! ### The RPL flags -/

section
variable (s : State)

theorem rpl_keptExcept (bank : Vector Byte 8) : KeptExcept [.rpl] s { s with rpl := bank } := by
  simp [keptExcept_iff, State.reg]

theorem v_keptExcept (regs : Vector Byte 16) : KeptExcept [.v] s { s with v := regs } := by simp [keptExcept_iff]

end

/-- Settles O58: FX75 writes the bank and FX85 the register file, both element by element; the registers from 8 up are out of
the bank's range. -/
theorem rplInstructionsMoveClampedPrefix : Obligations.RplInstructionsMoveClampedPrefix := by
  intro x s
  refine ⟨⟨_, rfl, fun k => ?stored, rpl_keptExcept s _⟩,
    ⟨_, rfl, fun k => (State.reg_ofFn s _ _).trans ?loaded, fun r hr => (State.reg_ofFn s _ r).trans ?kept,
      v_keptExcept s _⟩⟩
  case stored => exact Vector.getElem_ofFn k.isLt
  case loaded => simp only [k.isLt, and_true]; rfl
  case kept => exact dif_neg fun h => absurd h.2 (Nat.not_lt.2 hr)

end Sys2Proof.Machine
end

section
/-! PROOFS. Faults over a whole step: a fault a step takes is one fault entry on the ticked state, and a fault recorded before a
step stays (`60_exceptions.md` R126 to R129). -/

namespace Sys2Proof.Machine

/-- A fault at the address the step began at overwrites the advance of PC (`40_step_cycle.md` R67, `60_exceptions.md` R128). -/
theorem takeFault_advance (c : FaultCause) (a : Word) (s : State) :
    takeFault c a (s.advance.pc - 2) s.advance = takeFault c a s.pc s := by
  rw [State.advance_pc, BitVec.add_sub_cancel]; rfl

/-- A step that takes a fault, at the fetch or in its instruction, is the start of the step, one fault entry at the PC it began
with, and the presentation of inputs (`60_exceptions.md` R128, R131). -/
theorem step_takes_fault {s t : State} (hf : s.fault.cause = .none) (h : step s = .next t) (ht : t.fault.cause ≠ .none) :
    ∃ c a, t = (takeFault c a s.pc s.beginStep).presentNext := by
  obtain ⟨hf', -⟩ | ⟨-, -, hs⟩ | ⟨w, e, -, -, -, hs⟩ | ⟨w, i, -, -, -, hs⟩ := step_cases s
  case inl => exact absurd hf hf'
  all_goals rw [hs] at h
  case inr.inl => cases h; exact ⟨_, _, rfl⟩
  case inr.inr.inl => cases h; exact absurd hf (by simpa using ht)
  case inr.inr.inr =>
    obtain ⟨u, hu, rfl⟩ := mapNext_eq_next h
    obtain ⟨c, a, -, rfl⟩ | ⟨hkeep, -⟩ := exec_cases hu
    · exact ⟨c, a, congrArg State.presentNext (takeFault_advance c a s.beginStep)⟩
    · exact absurd hf (by simpa [hkeep] using ht)

/-- Settles O12: the step is `step_takes_fault`'s, and the timer phase, fault entry and the presentation of inputs have their
frames. -/
theorem faultsArePrecise : Obligations.FaultsArePrecise := by
  intro s t hf h ht
  obtain ⟨c, a, rfl⟩ := step_takes_fault hf h ht
  refine ⟨?pc, ?report, ?mem, ?tick, ?frame⟩
  case pc => simp
  case report => simp
  case mem => simp
  case tick => exact ticked_of_beginStep (by simp) (by simp) (by simp)
  case frame => exact (takeFault_beginStep_keptExcept c a s).trans (State.presentNext_keptExcept _)

/-- Settles O13: a core with a recorded fault is halted, and its step clears the report and presents inputs only. -/
theorem faultIsSticky : Obligations.FaultIsSticky := by
  intro s t hf h
  rw [step_of_halted hf] at h
  cases h
  exact State.presentNext_fault _

end Sys2Proof.Machine
end

section
/-! PROOFS. The canonical form of memory (entry 23): the first entry of a canonical list is the lowest address that reads unlike
the reset contents, so a list is read off its bytes. -/

namespace Sys2Proof.Machine

theorem Memory.read_head (k : Nat) (v : Byte) (rest : Memory) : Memory.read ((k, v) :: rest) k = v := if_pos rfl

section
variable {k : Nat} {v : Byte} {rest : Memory} (h : Memory.wf ((k, v) :: rest) = true)
include h

/-- Every address below the first entry reads as after reset. -/
theorem Memory.head_le_of_read_ne {a : Nat} (hr : Memory.read ((k, v) :: rest) a ≠ resetByte a) : k ≤ a := by
  obtain ⟨-, -, hrest, -⟩ := Memory.wf_cons.1 h
  by_contra hk
  have hlt : a < k := Nat.lt_of_not_le hk
  exact hr (Memory.read_of_lt _ (List.forall_mem_cons.2 ⟨hlt, fun c hc => hlt.trans (hrest c hc)⟩))

theorem Memory.read_head_ne_resetByte : Memory.read ((k, v) :: rest) k ≠ resetByte k := by
  obtain ⟨-, hv, -⟩ := Memory.wf_cons.1 h
  rwa [Memory.read_head]

theorem Memory.read_tail (a : Nat) :
    Memory.read rest a = if a = k then resetByte a else Memory.read ((k, v) :: rest) a := by
  obtain ⟨-, -, hrest, -⟩ := Memory.wf_cons.1 h
  split
  case isTrue ha => subst ha; exact Memory.read_of_lt rest hrest
  case isFalse ha => exact (if_neg ha).symm

end

/-- Settles O18: by induction along both lists. The first entry is at the lowest address that reads unlike the reset contents,
so the first entries agree, and the tails then read alike too. -/
theorem canonicalMemoriesAreDeterminedByTheirBytes : Obligations.CanonicalMemoriesAreDeterminedByTheirBytes := by
  intro m
  induction m with
  | nil =>
    rintro (_ | ⟨⟨k, v⟩, rest⟩) - hn hread
    · rfl
    · exact absurd (hread k).symm (Memory.read_head_ne_resetByte hn)
  | cons e rest ih =>
    obtain ⟨k, v⟩ := e
    rintro (_ | ⟨⟨k', v'⟩, rest'⟩) hm hn hread
    · exact absurd (hread k) (Memory.read_head_ne_resetByte hm)
    · have hk : k = k' := Nat.le_antisymm
        (Memory.head_le_of_read_ne hm (hread k' ▸ Memory.read_head_ne_resetByte hn))
        (Memory.head_le_of_read_ne hn (hread k ▸ Memory.read_head_ne_resetByte hm))
      subst hk
      have hv : v = v' := by simpa only [Memory.read_head] using hread k
      have htail : ∀ a, Memory.read rest a = Memory.read rest' a := fun a => by
        rw [Memory.read_tail hm, Memory.read_tail hn, hread]
      obtain ⟨-, -, -, hrest⟩ := Memory.wf_cons.1 hm
      obtain ⟨-, -, -, hrest'⟩ := Memory.wf_cons.1 hn
      rw [hv, ih rest' hrest hrest' htail]

end Sys2Proof.Machine
end

section
/-! PROOFS. The host's operations: reset, the load of an image, the consumption of the display, the presentation of inputs
(`70_reset_and_hazards.md` R141 to R150). -/

namespace Sys2Proof.Machine

/-! ### Loading an image -/

section
variable {bytes : List Byte} {s : State}

theorem State.loadRom_of_fits (h : bytes.length ≤ 3584) :
    s.loadRom bytes = .ok { s with mem := s.mem.writeBytes 0x200 bytes } := if_pos (decide_eq_true h)

theorem State.loadRom_of_too_large (h : 3584 < bytes.length) : s.loadRom bytes = .error .romTooLarge :=
  if_neg fun hf => Nat.not_le.2 h (of_decide_eq_true hf)

/-- What `load_rom` can do when it succeeds: the image fits, and one store to memory is made. -/
theorem State.loadRom_eq_ok {t : State} (h : s.loadRom bytes = .ok t) :
    bytes.length ≤ 3584 ∧ t = { s with mem := s.mem.writeBytes 0x200 bytes } := by
  rcases Nat.lt_or_ge 3584 bytes.length with hl | hl
  · rw [State.loadRom_of_too_large hl] at h; cases h
  · rw [State.loadRom_of_fits hl] at h; cases h; exact ⟨hl, rfl⟩

end

/-- Settles O3: the load is one store of the image at 0x200, which ends inside memory. -/
theorem loadRomCopiesImageOrFails : Obligations.LoadRomCopiesImageOrFails := by
  intro bytes s hs
  refine ⟨fun hl => ?fits, State.loadRom_of_too_large⟩
  have hend : 0x200 + bytes.length ≤ 4096 := by omega
  exact ⟨_, State.loadRom_of_fits hl, Memory.read_writeBytes_at bytes hs hend,
    Memory.read_writeBytes_other bytes s.mem 0x200, Memory.wf_writeBytes bytes hs hend, mem_keptExcept s _⟩

/-! ### Reset -/

/-- Memory after reset in the spec's terms: the two font tables in their ranges, 0 elsewhere (R142; `20_memory.md` R38, R39). -/
theorem resetByte_eq (a : Nat) :
    resetByte a = if 0x050 ≤ a ∧ a ≤ 0x09F then smallFontTable.getD (a - 0x050) 0
      else if 0x0A0 ≤ a ∧ a ≤ 0x103 then Config.largeFontByte (a - 0x0A0)
      else 0 := by
  have hsmall : (fontBase ≤ a ∧ a < fontBase + 80) ↔ (0x050 ≤ a ∧ a ≤ 0x09F) := by unfold fontBase; omega
  have hlarge : (largeFontBase ≤ a ∧ a < largeFontBase + largeFontSize) ↔ (0x0A0 ≤ a ∧ a ≤ 0x103) := by
    unfold largeFontBase largeFontSize; omega
  simp only [resetByte, hsmall, hlarge]
  rfl

/-- The reset lists no byte, so memory reads as its reset contents. -/
theorem State.hostReset_mem_read (q : BitVec 4) (s : State) (a : Nat) : (s.hostReset q).mem.read a = resetByte a := rfl

theorem State.hostReset_reg (q : BitVec 4) (s : State) (r : Reg) : (s.hostReset q).reg r = 0 :=
  Vector.getElem_replicate r.isLt

theorem State.hostReset_stack (q : BitVec 4) (s : State) (k : Fin 16) : (s.hostReset q).stack[k] = 0 :=
  Vector.getElem_replicate k.isLt

/-- Settles O1: the registers, the stack, the display and memory element by element; every other part is a field the reset
names. -/
theorem hostResetGivesResetState : Obligations.HostResetGivesResetState := fun q s =>
  ⟨s.hostReset_reg q, rfl, rfl, s.hostReset_stack q, rfl, rfl, rfl, rfl, Display.cell_blank, rfl, rfl, rfl,
    ⟨rfl, rfl, rfl, rfl⟩, rfl, rfl, rfl, fun a _ => (s.hostReset_mem_read q a).trans (resetByte_eq a)⟩

/-- Settles O2: the reset clears FAULT and EXIT and reads of the state before it only RPL and the fields that are not the
core's, which it keeps. -/
theorem hostResetLeavesFaultAndKeepsRpl : Obligations.HostResetLeavesFaultAndKeepsRpl := fun _ _ =>
  ⟨(State.not_halted_iff _).2 rfl, rfl, fun _ => rfl, rfl⟩

theorem State.Inv.hostReset (q : BitVec 4) (s : State) : (s.hostReset q).Inv where
  memory := rfl
  font := fun a _ _ => s.hostReset_mem_read q a
  index := Nat.zero_le _
  pcBound := show 0x200 ≤ 0x10FE by decide
  returns := fun k => by rw [s.hostReset_stack q k]; exact Nat.zero_le _
  faultPc := ⟨fun _ => rfl, fun h => absurd rfl h⟩
  faultAddr := rfl
  report := by rintro w ⟨⟩

/-- The state right after the first reset is a reset with no quirk set (entry 6). -/
theorem State.reset_eq_hostReset : State.reset = State.reset.hostReset 0 := rfl

/-- Settles O15: clause by clause in `State.Inv.hostReset`; the first reset is one such reset. -/
theorem resetHasStateInvariant : Obligations.ResetHasStateInvariant :=
  ⟨State.reset_eq_hostReset ▸ State.Inv.hostReset 0 State.reset, State.Inv.hostReset⟩

/-! ### The display consumed, inputs presented, and the invariant -/

/-- Settles O4: the update writes DIRTY only. -/
theorem consumeDisplayClearsDirty : Obligations.ConsumeDisplayClearsDirty := fun s =>
  ⟨s.consumeDisplay_dirty, by simp [keptExcept_iff]⟩

/-- The invariant asks of memory its canonical form and the bytes of the font region. -/
theorem State.Inv.store {s : State} (h : s.Inv) {m : Memory} (hm : m.wf = true)
    (hf : ∀ a, 0x050 ≤ a → a ≤ 0x13F → m.read a = s.mem.read a) : State.Inv { s with mem := m } where
  memory := hm
  font := fun a h1 h2 => (hf a h1 h2).trans (h.font a h1 h2)
  index := h.index
  pcBound := h.pcBound
  returns := h.returns
  faultPc := h.faultPc
  faultAddr := h.faultAddr
  report := h.report

/-- An image lies above the font region and inside memory, so its load keeps the invariant. -/
theorem State.Inv.loadRom {s t : State} (h : s.Inv) {bytes : List Byte} (ht : s.loadRom bytes = .ok t) : t.Inv := by
  obtain ⟨hl, rfl⟩ := State.loadRom_eq_ok ht
  exact h.store (Memory.wf_writeBytes bytes h.memory (by omega))
    fun a _ h2 => Memory.read_writeBytes_other bytes s.mem 0x200 a (.inl (by omega))

theorem State.Inv.consumeDisplay {s : State} (h : s.Inv) : s.consumeDisplay.Inv :=
  h.of_eq rfl rfl rfl rfl rfl fun _ hw => hw

theorem State.Inv.present {s : State} (h : s.Inv) (inp : StepInput) : (s.present inp).Inv :=
  h.of_eq rfl rfl rfl rfl rfl fun _ hw => hw

/-- Settles O16: one lemma per host operation; `load_rom` is the only one that writes a part the invariant speaks of. -/
theorem hostOperationsKeepStateInvariant : Obligations.HostOperationsKeepStateInvariant := fun _ _ h =>
  ⟨fun _ ht => h.loadRom ht, h.consumeDisplay, h.present⟩

end Sys2Proof.Machine
end
